-- ==== Sys2Proof/Word.lean ====
section
/-! DEFINITION. The names of the part's numbered resources and the sets the manual sends as bit masks
(spec 00_scope.md, Conventions; spec 10, R180). A number such as a target's is a `Fin`; a set is a bit vector whose
bit i stands for member i, as R180 encodes it, so that equal sets are equal data. -/

namespace Sys2Proof

/-- A byte of a lane frame or of a table record (R179, R180). -/
abbrev Byte := BitVec 8

/-- CP0–CP3. -/
abbrev Port := Fin 4
/-- T0–T7, and the target port of the same number. -/
abbrev Target := Fin 8
/-- VH0–VH11. -/
abbrev Head := Fin 12
/-- DO0–DO5. -/
abbrev Display := Fin 6
/-- W0–W7. -/
abbrev Window := Fin 8
/-- Tiers 0–2 of the desk plane. -/
abbrev Tier := Fin 3
/-- Slots 0–5 of a tier. -/
abbrev Slot := Fin 6

/-- A key number as the console interface delivers it (00_scope.md, Keys); real keys are 1..254. -/
abbrev Key := BitVec 8
/-- LCTL, LSHF, LALT, LMET, RCTL, RSHF, RALT, RMET, by the bit number R180 gives. -/
abbrev Modifier := Fin 8
/-- B1–B5 as 0..4. -/
abbrev Button := Fin 5

/-- A set of modifiers (R180: bit 0 LCTL … bit 7 RMET). -/
abbrev ModSet := BitVec 8
/-- A set drawn from B1–B5 (R180: bits 0–4). -/
abbrev ButtonSet := BitVec 5
/-- A set drawn from NUM, CAPS, SCROLL, COMPOSE, KANA (R180: bits 0–4). -/
abbrev LedSet := BitVec 5
/-- A set of console ports (R180: bits 0–3), the source sets of R39 and R40. -/
abbrev PortSet := BitVec 4
/-- A set of targets (R180: bits 0–7). -/
abbrev TargetSet := BitVec 8
/-- A set of windows (R180: bits 0–7). -/
abbrev WindowSet := BitVec 8
/-- The subject set of a notice kind, two bytes (R180). -/
abbrev SubjectSet := BitVec 16

end Sys2Proof
end

