-- ==== Sys2Proof/Syntax.lean ====
section
/-! DEFINITION. The commands of the part: one constructor of `Instr` for each row of spec/opcode_table.json.
A frame row carries the frame's contents as R180 and spec 10.3 lay them out; a row of the control engine carries nothing,
because its frame stands in a control inbox, where P_CONTROL put it (R162, R163; notes/assumptions/4.md). -/

namespace Sys2Proof

/-- Console port classes (R23, R180). NONE is the absence of a class. -/
inductive PortClass where
  | keyboard | pointer | keypad
  deriving DecidableEq, Repr

/-- Presentation modes (R107, R180). -/
inductive Mode where
  | boot | report | absolute
  deriving DecidableEq, Repr

/-- The value a P_POWER carries (R146, R180). -/
inductive PowerValue where
  | active | suspended
  deriving DecidableEq, Repr

/-- Width and height of a video frame in pixels (R123, R125). -/
structure Geometry where
  w : Nat
  h : Nat
  deriving DecidableEq, Repr

/-- The list part of a C_KEYS: the ROLLOVER count, or a counted key list (R27, R180). -/
inductive KeyList where
  | rollover
  | keys (l : List Key)
  deriving DecidableEq, Repr

/-- One constructor per row of spec/opcode_table.json, in the table's order. -/
inductive Instr where
  /-- POWER_ON (R176): power is applied with these strap levels (R165). -/
  | powerOn (cfgt : Target) (lock : Bool)
  /-- HARD_RESET (R176): RESET_N is asserted. -/
  | hardReset
  /-- RESET_N_RELEASE (R176). -/
  | resetNRelease
  /-- C_ATTACH on a console lane (R25). -/
  | cAttach (p : Port) (cls : PortClass)
  /-- C_KEYS on a console lane (R27, R29). -/
  | cKeys (p : Port) (mods : ModSet) (list : KeyList)
  /-- C_MOTION on a console lane (R27, R28): signed 16-bit movement, signed 8-bit wheel, buttons byte (R180). -/
  | cMotion (p : Port) (dx dy : BitVec 16) (wheel buttons : Byte)
  /-- C_DETACH on a console lane (R26). -/
  | cDetach (p : Port)
  /-- CONSOLE_LANE_LOSS (R26). -/
  | consoleLaneLoss (p : Port)
  /-- MERGE_TAKE_ENTRY (R30). -/
  | mergeTakeEntry
  /-- TAP_DEADLINE_EXPIRY (R70). -/
  | tapDeadlineExpiry
  /-- LEADER_DEADLINE_EXPIRY (R71). -/
  | leaderDeadlineExpiry
  /-- P_ATTACH on a target lane (R103, R105). -/
  | pAttach (t : Target) (mode : Mode)
  /-- P_DETACH on a target lane (R104). -/
  | pDetach (t : Target)
  /-- TARGET_LANE_LOSS (R104). -/
  | targetLaneLoss (t : Target)
  /-- P_MODE on a target lane (R108). -/
  | pMode (t : Target) (mode : Mode)
  /-- P_CREDIT on a target lane (R113): n is 1..32. -/
  | pCredit (t : Target) (n : Byte)
  /-- P_LEDS on a target lane (R121): the LED byte, bits 5–7 zero. -/
  | pLeds (t : Target) (leds : Byte)
  /-- P_POWER on a target lane (R146). -/
  | pPower (t : Target) (value : PowerValue)
  /-- P_CONTROL on a target lane (R162): tag, command byte and at most 60 argument bytes. -/
  | pControl (t : Target) (tag command : Byte) (args : List Byte)
  /-- SEND_REPORT (R113). -/
  | sendReport (t : Target)
  /-- STALL_TIMER_EXPIRY (R115). -/
  | stallTimerExpiry (t : Target)
  /-- WAKE_TIMER_EXPIRY (R151). -/
  | wakeTimerExpiry (t : Target)
  /-- IDLE_TIMER_EXPIRY (R158). -/
  | idleTimerExpiry
  /-- SIGNAL_ARRIVAL at a head (R124). -/
  | signalArrival (h : Head)
  /-- SIGNAL_LOSS at a head (R124). -/
  | signalLoss (h : Head)
  /-- HEAD_FRAME_END (R125, R126): the finished frame's geometry, and a token for its pixels (notes/assumptions/10.md). -/
  | headFrameEnd (h : Head) (g : Geometry) (picture : Nat)
  /-- DISPLAY_FRAME_START (R133). -/
  | displayFrameStart (d : Display)
  /-- TABLE_READ taken by the control engine (R168). -/
  | tableRead
  /-- TABLE_WRITE taken by the control engine (R168). -/
  | tableWrite
  /-- LAYOUT_HOLD taken by the control engine (R11). -/
  | layoutHold
  /-- LAYOUT_RELEASE taken by the control engine (R16). -/
  | layoutRelease
  /-- LAYOUT_ABANDON taken by the control engine (R14). -/
  | layoutAbandon
  /-- FOCUS_SET taken by the control engine (R170). -/
  | focusSet
  /-- WAKE taken by the control engine (R171). -/
  | wake
  /-- WINDOW_SHOW taken by the control engine (R131, R171). -/
  | windowShow
  /-- STATUS_READ: taken by the control engine with the read at the first block of the section, and then the read at one block, or the
  reply, a row (R172; notes/assumptions/29.md). -/
  | statusRead
  /-- NOTICE_READ taken by the control engine (R174). -/
  | noticeRead
  /-- NOTICE_CLEAR taken by the control engine (R174). -/
  | noticeClear
  /-- NOTICE_SUBSCRIBE taken by the control engine (R175). -/
  | noticeSubscribe
  /-- DESK_RESET: taken by the control engine with part 1 of the reset, and then one part, or the reply, a row (R177, R178;
  notes/assumptions/29.md). -/
  | deskReset
  /-- A frame with an unknown command, or arguments of the wrong length, taken by the control engine (R163). -/
  | badCommand
  /-- A frame on a console lane that fails a check of R24: its bytes as the lane carried them (R179). -/
  | badConsoleFrame (p : Port) (bytes : List Byte)
  /-- A frame on a target lane that fails a check of R102: its bytes as the lane carried them (R179). -/
  | badTargetFrame (t : Target) (bytes : List Byte)
  deriving DecidableEq, Repr

end Sys2Proof
end

