-- ==== Sys2Proof/Decode.lean ====
section
/-! DEFINITION. Commands spelled by the opcode table's bits. No row of spec/opcode_table.json gives bits ("fields" is empty in all 43),
so no word spells a command; the frames of the lanes are read by `consoleCommand` and `targetCommand` (Operands.lean). -/

namespace Sys2Proof

/-- The command a word of nbits bits spells: none, for want of a row that gives bits. -/
def decodeTableWord (_nbits _w : Nat) : Option Instr := none

end Sys2Proof
end

