-- ==== Sys2Proof/Config.lean ====
section
/-! DEFINITION. The fixed sizes of the part (spec 00_scope.md, Part summary, and the rules named) and the strap levels that
`State.reset` is taken with, and the one value the manual leaves open. -/

namespace Sys2Proof.Config

/-- Console FIFO depth (R27). -/
def fifoDepth : Nat := 8
/-- Keys of a snapshot and of a key-state table (R23, R39). -/
def keyCap : Nat := 12
/-- Keys of a BOOT view (R42). -/
def bootKeys : Nat := 6
/-- Delivery queue depth (R109). -/
def queueDepth : Nat := 32
/-- Hold queue depth (R153). -/
def holdDepth : Nat := 16
/-- Credit limit (R113). -/
def creditMax : Nat := 32
/-- Focus history length (R51). -/
def historyDepth : Nat := 4
/-- Limit of the scaled step in sixteenths (R83). -/
def stepClamp : Int := 65520
/-- Saturation of the edge-pressure accumulator (R87). -/
def pressureMax : Nat := 65535
/-- Limit of the home steps of an entry sync (R117). -/
def homeStepsMax : Nat := 64
/-- Payload limit of a lane frame (00_scope.md, Frames; R179). -/
def payloadMax : Nat := 62
/-- Greatest number of enabled windows on one display (R19). -/
def windowsPerDisplay : Nat := 3

/-- FREE VALUE: what a head measures of a frame whose width and height, the two arguments, do not both lie in the 1..32767 that R123
gives a measured geometry. DESIGN CHOICE (notes/assumptions/11.md), safe: it has no body, so a claim is true whatever it is. Read through
`measuredGeometry`, which keeps R123's range. -/
opaque measure : Nat → Nat → Nat × Nat

/-- CFGT of `State.reset`. DESIGN CHOICE (notes/assumptions/1.md), unsafe: the strap is the board's (R165);
POWER_ON takes every other level as its operand. -/
def resetCfgt : Target := 0
/-- LOCK of `State.reset`. DESIGN CHOICE (notes/assumptions/1.md), unsafe. -/
def resetLock : Bool := false

end Sys2Proof.Config
end

