-- ==== Sys2Proof/Machine/Sets.lean ====
section
/-! DEFINITION. Sets held as bit masks, lists, clamps and byte order: the helpers the meanings share
(spec 00_scope.md, Arithmetic and Sets and lists; R180). -/

namespace Sys2Proof.Machine

/-- The one-member set {i}. -/
def single {n : Nat} (i : Fin n) : BitVec n := BitVec.ofNat n (2 ^ i.val)

/-- Membership of a set held as a bit mask. -/
def has {n : Nat} (s : BitVec n) (i : Fin n) : Bool := s.getLsbD i.val

/-- The set with i added. -/
def adjoin {n : Nat} (s : BitVec n) (i : Fin n) : BitVec n := s ||| single i

/-- The members of a that are not members of b. -/
def minus {n : Nat} (a b : BitVec n) : BitVec n := a &&& ~~~b

/-- The set with i removed. -/
def remove {n : Nat} (s : BitVec n) (i : Fin n) : BitVec n := minus s (single i)

/-- The set of the indices that satisfy f. -/
def maskOf : (n : Nat) → (Fin n → Bool) → BitVec n
  | 0, _ => 0#0
  | n + 1, f => BitVec.cons (f (Fin.last n)) (maskOf n fun i => f i.castSucc)

/-- The members of a set, lowest number first ("in index order", 00_scope.md; B1 to B5; LCTL to RMET). -/
def members {n : Nat} (s : BitVec n) : List (Fin n) := (List.finRange n).filter fun i => has s i

/-- One entry of a numbered store changed by f. -/
def upd {α : Type} {n : Nat} (v : Vector α n) (i : Fin n) (f : α → α) : Vector α n := v.set i.val (f v[i]) i.isLt

/-- Every entry of a numbered store changed by f. -/
def updAll {α : Type} {n : Nat} (v : Vector α n) (f : Fin n → α → α) : Vector α n := Vector.ofFn fun i => f i v[i]

/-- "clamped to a..b" (00_scope.md, Arithmetic). -/
def clamp (a b x : Int) : Int := if x < a then a else if x > b then b else x

/-- ceil(a / b) for b above 0. -/
def ceilDiv (a b : Nat) : Nat := (a + b - 1) / b

/-- A set of key numbers as a strictly rising list: k added. -/
def addKey (k : Key) : List Key → List Key
  | [] => [k]
  | x :: xs => if k = x then x :: xs else if k < x then k :: x :: xs else x :: addKey k xs

/-- A set of key numbers as a strictly rising list: every key of ks added. -/
def addKeys (ks set : List Key) : List Key := ks.foldl (fun acc k => addKey k acc) set

/-- First appearances kept, later ones removed (R31). -/
def firstAppearances (seen : List Key) : List Key → List Key
  | [] => []
  | k :: ks => if k ∈ seen then firstAppearances seen ks else k :: firstAppearances (k :: seen) ks

/-- The first entry that satisfies c is changed by f. -/
def updFirst {α : Type} (c : α → Bool) (f : α → α) : List α → List α
  | [] => []
  | x :: xs => if c x then f x :: xs else x :: updFirst c f xs

/-- The newest entry (queues are oldest first) that satisfies c is changed by f and keeps its place. -/
def updNewest {α : Type} (c : α → Bool) (f : α → α) (l : List α) : List α := (updFirst c f l.reverse).reverse

/-- The newest entry that satisfies c. -/
def newest {α : Type} (c : α → Bool) (l : List α) : Option α := l.reverse.find? c

/-- The n entries from number i on, wrapping: the order in which an arbiter or a rotation examines them. -/
def rotation {n : Nat} (start : Fin n) : List (Fin n) :=
  (List.finRange n).map fun k => ⟨(start.val + k.val) % n, Nat.mod_lt _ (Nat.lt_of_le_of_lt (Nat.zero_le _) start.isLt)⟩

/-- The number after i, wrapping from the last to 0. -/
def succWrap {n : Nat} (i : Fin n) : Fin n := ⟨(i.val + 1) % n, Nat.mod_lt _ (Nat.lt_of_le_of_lt (Nat.zero_le _) i.isLt)⟩

/-- The value of bytes sent high byte first (R180). -/
def beValue (l : List Byte) : Nat := l.foldl (fun acc b => acc * 256 + b.toNat) 0

/-- v in w bytes, high byte first (R180). -/
def beBytes : (w : Nat) → (v : Nat) → List Byte
  | 0, _ => []
  | w + 1, v => BitVec.ofNat 8 (v / 256 ^ w) :: beBytes w v

/-- A flag's encoding (R180). -/
def flagNum (b : Bool) : Nat := if b then 1 else 0

/-- The encoding of a number that may be NONE, GAP or FOLLOW, which is 255 (R180). -/
def optNum {n : Nat} : Option (Fin n) → Nat
  | none => 255
  | some i => i.val

/-- The number a code names, `none` for every code of n or more (R180: 255 is NONE, GAP or FOLLOW). -/
def numOpt (n v : Nat) : Option (Fin n) := if h : v < n then some ⟨v, h⟩ else none

/-- The number of a record field, 0 for one out of range. -/
def numFin (n : Nat) (h : 0 < n) (v : Nat) : Fin n := if hv : v < n then ⟨v, hv⟩ else ⟨0, h⟩

end Sys2Proof.Machine
end

