-- ==== Sys2Proof/Machine/Layout.lean ====
section
/-! DEFINITION. The layout-class fields (spec 01, R1 to R7), the power-on layout (R9) and point lookup (R5). -/

namespace Sys2Proof.Machine

/-- A slot record: used, end_x, and a display or GAP (`none`) (R3). -/
structure SlotRec where
  used    : Bool
  endX    : Nat
  display : Option Display
  deriving DecidableEq, Repr

/-- A TIERS entry (R2). -/
structure TierRec where
  used  : Bool
  endY  : Nat
  slots : Vector SlotRec 6
  deriving DecidableEq, Repr

/-- The layout fields of a DISPLAYS entry (R4). -/
structure DisplayRec where
  enabled : Bool
  width   : Nat
  height  : Nat
  base    : Option Head
  shift   : Nat
  deriving DecidableEq, Repr

/-- A WINDOWS entry (R7). -/
structure WindowRec where
  enabled     : Bool
  display     : Display
  source      : Head
  x           : Nat
  y           : Nat
  shift       : Nat
  interactive : Bool
  deriving DecidableEq, Repr

/-- The layout fields of a HEADS entry (R6). -/
structure HeadRec where
  owner   : Option Target
  originX : Nat
  originY : Nat
  deriving DecidableEq, Repr

/-- The layout fields of a TARGETS entry (R6). -/
structure DeskSize where
  dw : Nat
  dh : Nat
  deriving DecidableEq, Repr

/-- One copy of the layout (R1). -/
structure Layout where
  tiers    : Vector TierRec 3
  displays : Vector DisplayRec 6
  windows  : Vector WindowRec 8
  heads    : Vector HeadRec 12
  desktops : Vector DeskSize 8
  deriving DecidableEq, Repr

/-- The power-on layout (R9). -/
def powerOnLayout : Layout where
  tiers := Vector.ofFn fun i =>
    if i = 0 then ⟨true, 1080, Vector.ofFn fun s => ⟨true, 1920 * (s.val + 1), some s⟩⟩
    else ⟨false, 1080, Vector.ofFn fun _ => ⟨false, 1920, none⟩⟩
  displays := Vector.ofFn fun d => ⟨true, 1920, 1080, some ⟨d.val, by omega⟩, 0⟩
  windows := Vector.ofFn fun _ => ⟨false, 0, 0, 0, 0, 1, false⟩
  heads := Vector.ofFn fun h => ⟨if hh : h.val < 8 then some ⟨h.val, hh⟩ else none, 0, 0⟩
  desktops := Vector.ofFn fun _ => ⟨1920, 1080⟩

/-- A rectangle of desk units or display pixels (00_scope.md, Rectangles). -/
structure Rect where
  x : Nat
  y : Nat
  w : Nat
  h : Nat
  deriving DecidableEq, Repr

/-- The points of a rectangle (00_scope.md, Rectangles). -/
def Rect.contains (r : Rect) (x y : Nat) : Bool := r.x ≤ x && x < r.x + r.w && r.y ≤ y && y < r.y + r.h

/-- A clipped width or height of 0 makes a rectangle empty (R7). -/
def Rect.isEmpty (r : Rect) : Bool := r.w = 0 || r.h = 0

/-- A display in a slot of a tier. -/
structure Place where
  tier    : Tier
  slot    : Slot
  display : Display
  deriving DecidableEq, Repr

/-- Slot s of tier i. -/
def Layout.slot (L : Layout) (i : Tier) (s : Slot) : SlotRec := L.tiers[i].slots[s]

/-- top(i) (R2). -/
def Layout.top (L : Layout) (i : Tier) : Nat := if i.val = 0 then 0 else L.tiers[i.val - 1].endY

/-- left(s) in tier i (R3). -/
def Layout.left (L : Layout) (i : Tier) (s : Slot) : Nat := if s.val = 0 then 0 else L.tiers[i].slots[s.val - 1].endX

/-- A tier's height (R2). -/
def Layout.tierHeight (L : Layout) (i : Tier) : Nat := L.tiers[i].endY - L.top i

/-- A slot's width (R3). -/
def Layout.slotWidth (L : Layout) (i : Tier) (s : Slot) : Nat := (L.slot i s).endX - L.left i s

/-- All slots, tier by tier and slot by slot. -/
def slotOrder : List (Tier × Slot) := (List.finRange 3).flatMap fun i => (List.finRange 6).map fun s => (i, s)

/-- The used slots of used tiers, in tier-then-slot order (R17). -/
def Layout.usedSlots (L : Layout) : List (Tier × Slot) := slotOrder.filter fun q => L.tiers[q.1].used && (L.slot q.1 q.2).used

/-- The used, non-GAP slots of used tiers in tier-then-slot order, with their displays (R4, R18). -/
def Layout.places (L : Layout) : List Place :=
  L.usedSlots.filterMap fun q => (L.slot q.1 q.2).display.map fun d => ⟨q.1, q.2, d⟩

/-- Where a display is placed (R4). -/
def Layout.placeOf (L : Layout) (d : Display) : Option Place := L.places.find? fun p => p.display = d

/-- The first screen (R4). -/
def Layout.firstScreen (L : Layout) : Option Place := L.places.head?

/-- The screen of a placed display (R4). -/
def Layout.screen (L : Layout) (p : Place) : Rect :=
  ⟨L.left p.tier p.slot, L.top p.tier, L.displays[p.display].width, L.displays[p.display].height⟩

/-- Left and top edge plus half the size, the centre of a rectangle (R4; R57 for a window). -/
def Rect.centre (r : Rect) : Nat × Nat := (r.x + r.w / 2, r.y + r.h / 2)

/-- The tier of a row: step 1 of R5. -/
def Layout.tierAt (L : Layout) (y : Nat) : Option Tier :=
  (List.finRange 3).find? fun i => L.tiers[i].used && y < L.tiers[i].endY

/-- The slot of a column in tier i: step 2 of R5. -/
def Layout.slotAt (L : Layout) (i : Tier) (x : Nat) : Option Slot :=
  (List.finRange 6).find? fun s => (L.slot i s).used && x < (L.slot i s).endX

/-- Point lookup (R5): the screen a point lies in, or no screen. -/
def Layout.lookup (L : Layout) (x y : Nat) : Option Place :=
  match L.tierAt y with
  | none => none
  | some i =>
    match L.slotAt i x with
    | none => none
    | some s =>
      match (L.slot i s).display with
      | none => none
      | some d => if L.top i + L.displays[d].height ≤ y then none else some ⟨i, s, d⟩

/-- A display belongs to the owner of its base head (R6). -/
def Layout.displayOwner (L : Layout) (d : Display) : Option Target :=
  match L.displays[d].base with
  | none => none
  | some h => L.heads[h].owner

/-- The owner of a window's source head (R8). -/
def Layout.windowOwner (L : Layout) (w : Window) : Option Target := L.heads[L.windows[w].source].owner

end Sys2Proof.Machine
end

