-- ==== Sys2Proof/Machine/Tables.lean ====
section
/-! DEFINITION. The policy-class and live-class records of the tables and their power-on values
(R36, R62, R76, R166, R169). -/

namespace Sys2Proof.Machine

/-- Wake policies (R166). -/
inductive WakePolicy where
  | onFocus | onKey | never
  deriving DecidableEq, Repr

/-- The policy fields of a TARGETS entry (R166). -/
structure TargetPolicy where
  wakePolicy : WakePolicy
  wakeRetry  : Nat
  glideIn    : Bool
  permit     : Bool
  deriving DecidableEq, Repr

/-- A CONSOLES entry (R36); a pin of `none` is FOLLOW. -/
structure ConsoleEntry where
  pin       : Option Target
  gainSlow  : Nat
  gainFast  : Nat
  threshold : Nat
  deriving DecidableEq, Repr

/-- What a key event and a hotkey trigger name: a key number or one modifier (R62). -/
inductive KeyItem where
  | key (k : Key)
  | mod (m : Modifier)
  deriving DecidableEq, Repr

/-- Hotkey kinds (R62). -/
inductive HotkeyKind where
  | chord | tap2 | follow
  deriving DecidableEq, Repr

/-- Hotkey actions (R62). -/
inductive HotkeyAction where
  | focus | focusNext | focusBack | focusLock | glideToggle | windowToggle | preset | wake | leader
  deriving DecidableEq, Repr

/-- A HOTKEYS entry (R62). -/
structure HotkeyEntry where
  enabled   : Bool
  kind      : HotkeyKind
  mods      : ModSet
  sideBlind : Bool
  trigger   : KeyItem
  action    : HotkeyAction
  argument  : Nat
  pass      : Bool
  lockedOk  : Bool
  deriving DecidableEq, Repr

/-- A PRESETS entry (R76). -/
structure PresetEntry where
  windows : WindowSet
  focus   : Option Target
  deriving DecidableEq, Repr

/-- The DESK entry (R169). Times in the field's own unit: ms, but wake timeout in s and desk idle in minutes. -/
structure DeskEntry where
  glideEnable   : Bool
  resistance    : Nat
  tapWindow     : Nat
  leaderTime    : Nat
  wakeTimeout   : Nat
  stallTime     : Nat
  deskIdle      : Nat
  swallowWake   : Bool
  coalesce      : Nat
  holdFrames    : Nat
  staleFrames   : Nat
  deriving DecidableEq, Repr

/-- Band budgets at power-on (R132). -/
def powerOnBudgets : Vector Nat 6 := Vector.ofFn fun _ => 200

/-- Target policies at power-on: control permit for the target CFGT names only (R166). -/
def powerOnPolicies (cfgt : Target) : Vector TargetPolicy 8 := Vector.ofFn fun t => ⟨.onFocus, 1, true, t = cfgt⟩

/-- CONSOLES at power-on (R36). -/
def powerOnConsoles : Vector ConsoleEntry 4 := Vector.ofFn fun _ => ⟨none, 16, 24, 12⟩

/-- HOTKEYS at power-on (R62): entry 0 opens the leader on a double RCTL, entries 1–8 follow it. -/
def powerOnHotkeys : Vector HotkeyEntry 24 := Vector.ofFn fun n =>
  if n.val = 0 then ⟨true, .tap2, 0, false, .mod 4, .leader, 0, false, false⟩
  else if n.val ≤ 8 then ⟨true, .follow, 0, false, .key (BitVec.ofNat 8 (29 + n.val)), .focus, n.val - 1, false, false⟩
  else ⟨false, .chord, 0, false, .key 1, .focusNext, 0, false, false⟩

/-- PRESETS at power-on (R76). -/
def powerOnPresets : Vector PresetEntry 8 := Vector.ofFn fun _ => ⟨0, none⟩

/-- DESK at power-on (R169). -/
def powerOnDesk : DeskEntry := ⟨true, 0, 350, 2000, 8, 250, 0, true, 12, 120, 30⟩

end Sys2Proof.Machine
end

