-- ==== Sys2Proof/Machine/Blocks.lean ====
section
/-! DEFINITION. The state of each block (R23, R39, R40, R49, R64, R79, R101, R116, R123, R132, R145, R153, R162) and its
value at power-on. A running timer is held as the length it was started with (notes/assumptions/2.md); `none` is stopped. -/

namespace Sys2Proof.Machine

/-! ## Console ports (R23, R27) -/

/-- An entry of a console FIFO; `swallowed` is the mark of R35. -/
inductive FifoEntry where
  | keys (mods : ModSet) (list : List Key) (swallowed : Bool)
  | motion (dx dy wheel : Int) (buttons : ButtonSet) (swallowed : Bool)
  | releaseAll
  deriving DecidableEq, Repr

/-- A console port (R23). The suppressed set is held by kind of item; its keys strictly rise. `inChord` says that the merge engine has
processed a snapshot of the port since its pin last became FOLLOW: only then do its modifiers count in chord modifier sets (R78;
notes/assumptions/26.md). -/
structure ConsolePort where
  attached   : Bool
  cls        : Option PortClass
  fifo       : List FifoEntry
  snapMods   : ModSet
  snapKeys   : List Key
  held       : ButtonSet
  supKeys    : List Key
  supMods    : ModSet
  supButtons : ButtonSet
  inChord    : Bool
  deriving DecidableEq, Repr

/-- A console port after power-on and hard reset (R23), its empty snapshot counting in chord modifier sets
(notes/assumptions/26.md). -/
def ConsolePort.initial : ConsolePort := ⟨false, none, [], 0, [], 0, [], 0, 0, true⟩

/-! ## Hotkey detector (R64) -/

/-- Detector states (R64). -/
inductive DetectorState where
  | idle | tapWait | leader
  deriving DecidableEq, Repr

/-- The hotkey detector (R64). -/
structure Detector where
  state          : DetectorState
  candidate      : Option (KeyItem × Port)
  tapDeadline    : Option Nat
  leaderDeadline : Option Nat
  deriving DecidableEq, Repr

/-- The detector at every reset (R64): IDLE, no candidate, no deadline running. -/
def Detector.initial : Detector := ⟨.idle, none, none, none⟩

/-! ## Focus unit (R39, R40, R49) -/

/-- An entry of a key-state table (R39). -/
structure KeyEntry where
  key     : Key
  sources : PortSet
  seq     : BitVec 16
  deriving DecidableEq, Repr

/-- A target's key-state table (R39) and button record (R40); an empty source set is a modifier or button not held. -/
structure KeyState where
  keys    : List KeyEntry
  mods    : Vector PortSet 8
  counter : BitVec 16
  buttons : Vector PortSet 5
  deriving DecidableEq, Repr

/-- A key-state table at power-on and hard reset (R39, R40). -/
def KeyState.initial : KeyState := ⟨[], Vector.ofFn fun _ => 0, 0, Vector.ofFn fun _ => 0⟩

/-- What lies under the pointer (R8). -/
inductive Region where
  | screen (d : Display)
  | window (w : Window)
  deriving DecidableEq, Repr

/-- Causes of a focus switch (R49). -/
inductive Cause where
  | glide | window | hotkey | control | layout | reset
  deriving DecidableEq, Repr

/-- The focus record (R49). -/
structure Focus where
  target   : Target
  region   : Region
  cause    : Cause
  lock     : Bool
  detached : Bool
  history  : List Target
  deriving DecidableEq, Repr

/-- The focus record at power-on (R49). -/
def Focus.initial : Focus := ⟨0, .screen 0, .reset, false, false, []⟩

/-! ## Glide unit (R79) -/

/-- Edges of a screen (R79, R87). -/
inductive Edge where
  | left | right | top | bottom
  deriving DecidableEq, Repr

/-- An edge-pressure accumulator whose key is not NONE (R79, R87). -/
structure Pressure where
  display : Display
  amount  : Nat
  edge    : Edge
  deriving DecidableEq, Repr

/-- The glide unit (R79): the pointer in sixteenths, the accumulator (`none`: key NONE, amount 0), the detached pointer and
the pinned fractions. -/
structure Glide where
  px        : Nat
  py        : Nat
  pressure  : Option Pressure
  detached  : Option (Nat × Nat)
  fractions : Vector (Nat × Nat) 4
  deriving DecidableEq, Repr

/-- The glide unit with the pointer at a desk point with fractions 0, everything else cleared (R49, R79). -/
def Glide.at (x y : Nat) : Glide := ⟨x * 16, y * 16, none, none, Vector.ofFn fun _ => (0, 0)⟩

/-! ## Target ports (R101, R109, R116, R145, R153, R162) -/

/-- Power states (R145). -/
inductive Power where
  | absent | active | suspended | waking
  deriving DecidableEq, Repr

/-- A report: T_KEYS, T_REL with or without the sync mark, or T_ABS (R109). -/
inductive Report where
  | keys (mods : ModSet) (list : List Key)
  | rel (dx dy wheel : Int) (buttons : ButtonSet) (sync : Bool)
  | abs (ax ay : Nat) (wheel : Int) (buttons : ButtonSet)
  deriving DecidableEq, Repr

/-- Phases of the entry-sync record (R116). -/
inductive SyncPhase where
  | cleared | pending | home | approach | complete
  deriving DecidableEq, Repr

/-- The entry-sync record (R116). -/
structure SyncRecord where
  phase    : SyncPhase
  homeLeft : Nat
  mx       : Nat
  my       : Nat
  deriving DecidableEq, Repr

/-- A control frame waiting in an inbox (R162). -/
structure ControlFrame where
  tag     : Byte
  command : Byte
  args    : List Byte
  deriving DecidableEq, Repr

/-- A target port with its share of the wake unit (R101, R145, R153) and its control inbox (R162). -/
structure TargetPort where
  attached  : Bool
  power     : Power
  mode      : Mode
  queue     : List Report
  credit    : Nat
  resync    : Bool
  stall     : Option Nat
  sync      : SyncRecord
  lx        : Nat
  ly        : Nat
  leds      : LedSet
  hold      : List Report
  wakeTimer : Option Nat
  retry     : Nat
  inbox     : Option ControlFrame
  deriving DecidableEq, Repr

/-- A target port after power-on and hard reset (R101, R145, R162). R116 gives the sync record's phase; home steps 0 and assumed point
(0, 0) are the model's (notes/assumptions/27.md). -/
def TargetPort.initial : TargetPort :=
  ⟨false, .absent, .boot, [], 0, false, none, ⟨.cleared, 0, 0, 0⟩, 0, 0, 0, [], none, 0, none⟩

/-! ## A command the control engine executes in parts (R163, R172, R177, R178) -/

/-- What a DESK_RESET in progress takes next: parts 2 to 6 of R177, by the blocks that take them, and then the reply (R178). -/
inductive ResetStage where
  | focusUnit | targetPorts | compositor | layoutStore | noticeRecord | answer
  deriving DecidableEq, Repr

/-- The blocks at which a STATUS_READ reads the items of a section (R172): those of GENERAL, the focus unit and the target port for a
TARGET section, and the console port for a PORT section. -/
inductive StatusBlock where
  | controlEngine | wakeUnit | layoutStore | focusUnit | glideUnit | targetPorts | videoHeads
  | inputState (t : Target) | targetPort (t : Target) | consolePort (p : Port)
  deriving DecidableEq, Repr

/-- What is left of a command executed in parts. -/
inductive EngineWork where
  /-- DESK_RESET: what it takes next (R177). -/
  | reset (stage : ResetStage)
  /-- STATUS_READ: the blocks still to be read, in order, and the section's data as read so far (R172). -/
  | status (left : List StatusBlock) (data : List Byte)
  deriving DecidableEq, Repr

/-- A command that the control engine is executing (R163): its sender, the frame it answers, and what is left of it. A teardown of the
sender takes the frame away, and then no reply is sent (R164, R178). -/
structure Execution where
  sender : Target
  frame  : Option ControlFrame
  work   : EngineWork
  deriving DecidableEq, Repr

/-- The same command after a teardown of target t (R164, R178): its parts go on, and a reply to t is dropped. -/
def Execution.afterTeardown (t : Target) (e : Execution) : Execution := if e.sender = t then { e with frame := none } else e

/-! ## Wake unit (R156) -/

/-- The desk state (R156). -/
inductive DeskState where
  | awake | idle
  deriving DecidableEq, Repr

/-! ## Video heads and compositor (R123, R132, R142) -/

/-- Head lock states (R123). -/
inductive LockState where
  | noSignal | locking | locked
  deriving DecidableEq, Repr

/-- A complete head frame with the serial it was stored with (R123); `picture` is a token for its pixels. -/
structure VideoFrame where
  geometry : Geometry
  picture  : Nat
  serial   : BitVec 32
  deriving DecidableEq, Repr

/-- A video head (R123). -/
structure HeadState where
  lock      : LockState
  candidate : Option Geometry
  measured  : Option Geometry
  latest    : Option VideoFrame
  serial    : BitVec 32
  sinceLoss : Nat
  deriving DecidableEq, Repr

/-- A head after power-on and hard reset (R123). -/
def HeadState.initial : HeadState := ⟨.noSignal, none, none, none, 0, 0⟩

/-- Output states of a display (R132). -/
inductive OutputState where
  | blank | live | held | fill
  deriving DecidableEq, Repr

/-- A candidate window as a picture draws it (R142): its rectangle on the display, its shift and its content. -/
structure WindowImage where
  window  : Window
  rect    : Rect
  shift   : Nat
  content : Option VideoFrame
  deriving DecidableEq, Repr

/-- The picture of one display frame (R142): no picture, or a display-sized picture of a base (`none`: the fill colour)
reduced by a shift, with windows drawn over it in the order of the list. -/
inductive Picture where
  | blank
  | drawn (width height : Nat) (base : Option VideoFrame) (shift : Nat) (windows : List WindowImage)
  deriving DecidableEq, Repr

/-- The compositor's state of a display (R132) and the picture on its output (R142). -/
structure DisplayState where
  output   : OutputState
  rotation : Window
  picture  : Picture
  deriving DecidableEq, Repr

/-- A display after power-on and hard reset (R132). -/
def DisplayState.initial : DisplayState := ⟨.blank, 0, .blank⟩

/-- The compositor's state of a window (R130, R132). -/
structure WindowState where
  shown   : Bool
  content : Option VideoFrame
  age     : Nat
  stale   : Bool
  deriving DecidableEq, Repr

/-- A window after power-on and hard reset (R130, R132). -/
def WindowState.initial : WindowState := ⟨false, none, 0, false⟩

/-! ## Outbound frames (R106, R164, R173) -/

/-- Notice kinds, in priority order (R173). -/
inductive NoticeKind where
  | wakeFailed | targetStalled | deliveryOverflow | laneError | consoleOverrun | geometryMismatch | windowStale
  | focusChanged
  deriving DecidableEq, Repr

/-- Reply codes (R164). -/
inductive ReplyCode where
  | ok | busy | notPermitted | badCommand | badValue | locked | needHold | notHeld | layoutInvalid | notEnabled
  deriving DecidableEq, Repr

/-- A frame the part has sent, with its lane (spec 10.3): C_LEDS on a console lane, the others on a target lane. -/
inductive OutFrame where
  | leds (p : Port) (set : LedSet)
  | report (t : Target) (r : Report)
  | wake (t : Target)
  | reply (t : Target) (tag : Byte) (code : ReplyCode) (data : List Byte)
  | notice (t : Target) (kind : NoticeKind) (subjects : SubjectSet)
  deriving DecidableEq, Repr

end Sys2Proof.Machine
end

