-- ==== Sys2Proof/Machine/Account.lean ====
section
/-! DEFINITION. The account of held keys, modifiers and buttons: key-state tables and button records (R39, R40), suppressed
sets (R41), keyboard views (R42). -/

namespace Sys2Proof.Machine

/-- A key, modifier or button held on a console port (R41). -/
inductive Item where
  | key (k : Key)
  | mod (m : Modifier)
  | button (b : Button)
  deriving DecidableEq, Repr

/-- A key event's item. -/
def KeyItem.item : KeyItem → Item
  | .key k => .key k
  | .mod m => .mod m

/-! ## Key-state tables and button records -/

/-- Port p is in the item's source set (R39, R40). -/
def KeyState.holds (p : Port) (ks : KeyState) : Item → Bool
  | .key k => ks.keys.any fun e => e.key = k && has e.sources p
  | .mod m => has ks.mods[m] p
  | .button b => has ks.buttons[b] p

/-- The table has an entry for the key. -/
def KeyState.hasKey (k : Key) (ks : KeyState) : Bool := ks.keys.any fun e => e.key = k

/-- A taken key press is booked, or refused (`none`) by a full table (R39, R45). -/
def KeyState.pressKey (p : Port) (k : Key) (ks : KeyState) : Option KeyState :=
  if ks.hasKey k then
    some { ks with keys := ks.keys.map fun e => if e.key = k then { e with sources := adjoin e.sources p } else e }
  else if Config.keyCap ≤ ks.keys.length then none
  else some { ks with keys := ks.keys ++ [⟨k, single p, ks.counter⟩], counter := ks.counter + 1 }

/-- A taken press is booked, or refused (`none`); modifiers and buttons have no count limit (R45, R47). -/
def KeyState.press (p : Port) (i : Item) (ks : KeyState) : Option KeyState :=
  match i with
  | .key k => ks.pressKey p k
  | .mod m => some { ks with mods := upd ks.mods m fun f => adjoin f p }
  | .button b => some { ks with buttons := upd ks.buttons b fun f => adjoin f p }

/-- The entries with f taken out of their source sets; an entry left with no source is removed (R39). -/
def dropSources (f : PortSet) (keys : List KeyEntry) : List KeyEntry :=
  (keys.map fun e => { e with sources := minus e.sources f }).filter (fun e => e.sources != 0)

/-- Port p leaves the item's source set (R46). -/
def KeyState.release (p : Port) (i : Item) (ks : KeyState) : KeyState :=
  match i with
  | .key k =>
    let left := ks.keys.map fun e => if e.key = k then { e with sources := remove e.sources p } else e
    { ks with keys := left.filter fun e => e.sources != 0 }
  | .mod m => { ks with mods := upd ks.mods m fun f => remove f p }
  | .button b => { ks with buttons := upd ks.buttons b fun f => remove f p }

/-- The ports of f leave every source set (step 1 of R52). -/
def KeyState.dropPorts (f : PortSet) (ks : KeyState) : KeyState :=
  { ks with
    keys := dropSources f ks.keys
    mods := updAll ks.mods fun _ g => minus g f
    buttons := updAll ks.buttons fun _ g => minus g f }

/-- Table and button record emptied, the counter kept (R48). -/
def KeyState.clear (ks : KeyState) : KeyState := { KeyState.initial with counter := ks.counter }

/-- For each modifier, the ports that carry it join its source set (step 2 of R52). -/
def KeyState.carry (carried : Port → ModSet) (ks : KeyState) : KeyState :=
  { ks with mods := updAll ks.mods fun m f => f ||| maskOf 4 fun p => has (carried p) m }

/-- The keys that port p holds at the target. -/
def KeyState.keysOf (p : Port) (ks : KeyState) : List Key := (ks.keys.filter fun e => has e.sources p).map KeyEntry.key

/-- The modifiers that port p holds at the target. -/
def KeyState.modsOf (p : Port) (ks : KeyState) : ModSet := maskOf 8 fun m => has ks.mods[m] p

/-- The buttons that port p holds at the target. -/
def KeyState.buttonsOf (p : Port) (ks : KeyState) : ButtonSet := maskOf 5 fun b => has ks.buttons[b] p

/-- The target's modifier set (R39). -/
def KeyState.modSet (ks : KeyState) : ModSet := maskOf 8 fun m => ks.mods[m] != 0

/-- The target's button set (R40). -/
def KeyState.buttonSet (ks : KeyState) : ButtonSet := maskOf 5 fun b => ks.buttons[b] != 0

/-- The keyboard view in a presentation mode (R42): first six keys in press order in BOOT, all of them otherwise. -/
def KeyState.view (m : Mode) (ks : KeyState) : ModSet × List Key :=
  (ks.modSet, if m = .boot then (ks.keys.map KeyEntry.key).take Config.bootKeys else ks.keys.map KeyEntry.key)

/-! ## Suppressed sets -/

/-- The item is in the port's suppressed set. -/
def ConsolePort.suppressed (port : ConsolePort) : Item → Bool
  | .key k => port.supKeys.contains k
  | .mod m => has port.supMods m
  | .button b => has port.supButtons b

/-- The items join the port's suppressed set (R41). -/
def ConsolePort.suppressAll (keys : List Key) (mods : ModSet) (buttons : ButtonSet) (port : ConsolePort) : ConsolePort :=
  { port with
    supKeys := addKeys keys port.supKeys
    supMods := port.supMods ||| mods
    supButtons := port.supButtons ||| buttons }

/-- One item joins the port's suppressed set (R41). -/
def ConsolePort.suppress (i : Item) (port : ConsolePort) : ConsolePort :=
  match i with
  | .key k => port.suppressAll [k] 0 0
  | .mod m => port.suppressAll [] (single m) 0
  | .button b => port.suppressAll [] 0 (single b)

/-- One item leaves the port's suppressed set (R46). -/
def ConsolePort.unsuppress (i : Item) (port : ConsolePort) : ConsolePort :=
  match i with
  | .key k => { port with supKeys := port.supKeys.filter fun x => x != k }
  | .mod m => { port with supMods := remove port.supMods m }
  | .button b => { port with supButtons := remove port.supButtons b }

end Sys2Proof.Machine
end

