-- ==== Sys2Proof/Machine/Delivery.lean ====
section
/-! DEFINITION. One target port's queues, resync, entry sync and stall timer (spec 06, R107 to R119; spec 08, R153, R154),
as operations on the port alone. What reaches beyond the port (notices, frames sent) is in Ops.lean. -/

namespace Sys2Proof.Machine

/-! ## Forms by presentation mode (R107) -/

/-- Delta limit and sync step limit L of a relative mode (R107). An ABSOLUTE target has no delta; the value named for it is
read by nothing. -/
def deltaLimit : Mode → Int
  | .boot => 127
  | .report => 32767
  | .absolute => 32767

/-- A delta clamped to the mode's range (R107). -/
def clampDelta (m : Mode) (d : Int) : Int := clamp (-deltaLimit m) (deltaLimit m) d

/-- The wheel a report of the mode carries (R96): dropped in BOOT. -/
def wheelIn (m : Mode) (w : Int) : Int := if m = .boot then 0 else w

/-- The sum of two wheels, clamped to −128..127; in BOOT it stays 0 (R110, R154). -/
def wheelSum (m : Mode) (a b : Int) : Int := wheelIn m (clamp (-128) 127 (a + b))

/-- The buttons a report of the mode carries (R96, R107): B1–B3 in BOOT. -/
def buttonsIn (m : Mode) (b : ButtonSet) : ButtonSet := if m = .boot then b &&& 7#5 else b

/-- An absolute coordinate (R94). -/
def absCoord (v size : Nat) : Nat := min 32767 (v * 32768 / size)

/-- A T_REL or T_ABS (R109). -/
def Report.isPointer : Report → Bool
  | .keys _ _ => false
  | .rel _ _ _ _ _ => true
  | .abs _ _ _ _ => true

/-- The sync mark (R109). -/
def Report.isSync : Report → Bool
  | .rel _ _ _ _ sync => sync
  | .keys _ _ => false
  | .abs _ _ _ _ => false

/-- The zero-motion report of a button set (R43, R112): T_REL of zeros, or T_ABS at the last target point. -/
def TargetPort.stillReport (size : DeskSize) (wheel : Int) (b : ButtonSet) (p : TargetPort) : Report :=
  match p.mode with
  | .absolute => .abs (absCoord p.lx size.dw) (absCoord p.ly size.dh) wheel b
  | .boot => .rel 0 0 (wheelIn .boot wheel) (buttonsIn .boot b) false
  | .report => .rel 0 0 (wheelIn .report wheel) (buttonsIn .report b) false

/-! ## The delivery queue (R109 to R111) -/

/-- The newest report with an offered pointer report merged into it, where R110 lets it merge: both unmarked, of one form,
with equal buttons. -/
def mergeDelivery (m : Mode) : Report → Report → Option Report
  | .rel dx dy w b false, .rel dx' dy' w' b' false =>
    if b = b' then some (.rel (clampDelta m (dx + dx')) (clampDelta m (dy + dy')) (wheelSum m w w') b false) else none
  | .abs _ _ w b, .abs ax' ay' w' b' => if b = b' then some (.abs ax' ay' (wheelSum m w w') b) else none
  | _, _ => none

/-- What an offer finds: the merged newest report when the queue is at the coalesce level or above (R110). -/
def TargetPort.merged (coalesce : Nat) (r : Report) (p : TargetPort) : Option Report :=
  if coalesce ≤ p.queue.length then p.queue.getLast?.bind fun n => mergeDelivery p.mode n r else none

/-- The delivery queue has no free place (R109). -/
def TargetPort.queueFull (p : TargetPort) : Bool := Config.queueDepth ≤ p.queue.length

/-- A report that cannot be placed is discarded (R111). -/
def TargetPort.overflows (coalesce : Nat) (r : Report) (p : TargetPort) : Bool :=
  (p.merged coalesce r).isNone && p.queueFull

/-- A report offered to the delivery queue (R109, R110, R111): merged, appended, or discarded with the resync flag set. -/
def TargetPort.offer (coalesce : Nat) (r : Report) (p : TargetPort) : TargetPort :=
  match p.merged coalesce r with
  | some n => { p with queue := p.queue.dropLast ++ [n] }
  | none => if p.queueFull then { p with resync := true } else { p with queue := p.queue ++ [r] }

/-! ## The hold queue (R153, R154) -/

/-- The held pointer report with an offered one merged into it (R154). Reports of two forms cannot meet, because a mode
change empties the queue (R108); the offered one would stand (notes/assumptions/22.md). -/
def mergeHold (m : Mode) : Report → Report → Report
  | .rel dx dy w _ _, .rel dx' dy' w' b' _ =>
    .rel (clampDelta m (dx + dx')) (clampDelta m (dy + dy')) (wheelSum m w w') b' false
  | .abs _ _ w _, .abs ax' ay' w' b' => .abs ax' ay' (wheelSum m w w') b'
  | _, r => r

/-- The hold queue has no free place (R153). -/
def TargetPort.holdFull (p : TargetPort) : Bool := Config.holdDepth ≤ p.hold.length

/-- A report offered to the hold queue (R153, R154). -/
def TargetPort.offerHold (r : Report) (p : TargetPort) : TargetPort :=
  if r.isPointer then
    if p.hold.any Report.isPointer then { p with hold := updFirst Report.isPointer (fun h => mergeHold p.mode h r) p.hold }
    else if p.holdFull then { p with resync := true }
    else { p with hold := p.hold ++ [r] }
  else if p.holdFull then { p with hold := updNewest (fun h => !h.isPointer) (fun _ => r) p.hold }
  else { p with hold := p.hold ++ [r] }

/-! ## Entry sync (R116 to R120) -/

/-- The relative modes (R107). -/
def isRelative : Mode → Bool
  | .boot => true
  | .report => true
  | .absolute => false

/-- The home steps of a sync, k = min(64, ceil(max(DW, DH) / L)) (R117). -/
def homeSteps (m : Mode) (size : DeskSize) : Nat :=
  min Config.homeStepsMax (ceilDiv (max size.dw size.dh) (deltaLimit m).toNat)

/-- PENDING, HOME or APPROACH: a sync in progress (R95, R116, R120). -/
def SyncPhase.inProgress : SyncPhase → Bool
  | .pending => true
  | .home => true
  | .approach => true
  | .cleared => false
  | .complete => false

/-- The record becomes CLEARED (R116); that it keeps its home steps and assumed point is the model's choice (notes/assumptions/20.md). -/
def TargetPort.clearSync (p : TargetPort) : TargetPort := { p with sync := { p.sync with phase := .cleared } }

/-- The record becomes HOME with k home steps left (R117); that it keeps its assumed point while HOME is the model's choice
(notes/assumptions/20.md). -/
def TargetPort.startHome (size : DeskSize) (p : TargetPort) : TargetPort :=
  { p with sync := { p.sync with phase := .home, homeLeft := homeSteps p.mode size } }

/-- An entry-sync request as the port takes it, by power state; one that finds the mode ABSOLUTE is dropped (R117). A record that
becomes PENDING keeps its home steps and assumed point: the model's choice (notes/assumptions/20.md). -/
def TargetPort.requestSync (size : DeskSize) (p : TargetPort) : TargetPort :=
  if !isRelative p.mode then p
  else match p.power with
    | .active => p.startHome size
    | .waking => { p with sync := { p.sync with phase := .pending } }
    | .suspended => { p with sync := { p.sync with phase := .pending } }
    | .absent => p

/-- An entry sync in progress is abandoned when focus leaves the target; a COMPLETE record stays (R120). -/
def TargetPort.abandonSync (p : TargetPort) : TargetPort := if p.sync.phase.inProgress then p.clearSync else p

/-- A sync report is due: ACTIVE, no report with the sync mark in the queue and a free place (R118). -/
def TargetPort.syncDue (p : TargetPort) : Bool := p.power = .active && !p.queue.any Report.isSync && !p.queueFull

/-- When no home step is left and the last one has left the queue, the record becomes APPROACH from (0, 0) (R118). -/
def TargetPort.homeDone (p : TargetPort) : TargetPort :=
  if p.sync.phase = .home ∧ p.sync.homeLeft = 0 ∧ ¬ p.queue.any Report.isSync then
    { p with sync := { p.sync with phase := .approach, mx := 0, my := 0 } }
  else p

/-- The next sync report of a HOME or APPROACH record (R118, R119). A record that becomes COMPLETE keeps the assumed point it has then, also as
the last target point moves on: the model's choice (notes/assumptions/20.md). -/
def TargetPort.nextSync (buttons : ButtonSet) (p : TargetPort) : TargetPort :=
  let L := deltaLimit p.mode
  match p.sync.phase with
  | .home =>
    { p with
      queue := p.queue ++ [.rel (-L) (-L) 0 (buttonsIn p.mode buttons) true]
      sync := { p.sync with homeLeft := p.sync.homeLeft - 1 } }
  | .approach =>
    if p.sync.mx = p.lx ∧ p.sync.my = p.ly then { p with sync := { p.sync with phase := .complete } }
    else
      let dx := clamp (-L) L ((p.lx : Int) - p.sync.mx)
      let dy := clamp (-L) L ((p.ly : Int) - p.sync.my)
      { p with
        queue := p.queue ++ [.rel dx dy 0 (buttonsIn p.mode buttons) true]
        sync := { p.sync with mx := (p.sync.mx + dx).toNat, my := (p.sync.my + dy).toNat } }
  | .cleared => p
  | .pending => p
  | .complete => p

/-- Sync at the end of an event of the port (R118, R119). -/
def TargetPort.syncStep (buttons : ButtonSet) (p : TargetPort) : TargetPort :=
  if p.homeDone.syncDue then p.homeDone.nextSync buttons else p.homeDone

/-! ## Resync (R112) -/

/-- The queue with the view appended, unless its newest report is a T_KEYS carrying that view (step 2 of R112). -/
def restateKeys (mods : ModSet) (list : List Key) (queue : List Report) : List Report :=
  if queue.getLast? = some (.keys mods list) then queue else queue ++ [.keys mods list]

/-- A resync attempted at the end of an event of the port (R112). -/
def TargetPort.resyncStep (view : ModSet × List Key) (buttons : ButtonSet) (size : DeskSize) (p : TargetPort) : TargetPort :=
  if p.power = .active ∧ p.resync ∧ ¬ p.queueFull then
    let q := restateKeys view.1 view.2 p.queue
    if q.length < Config.queueDepth then { p with queue := q ++ [p.stillReport size 0 buttons], resync := false }
    else { p with queue := q }
  else p

/-! ## The stall timer (R114) -/

/-- The delivery queue is emptied, so the stall timer stops (R114). -/
def TargetPort.emptyQueue (p : TargetPort) : TargetPort := { p with queue := [], stall := none }

/-- The stall timer at the end of an event: stopped on an empty queue, started where reports wait without credit (R114). -/
def TargetPort.stallStep (stallTime : Nat) (p : TargetPort) : TargetPort :=
  if p.queue.isEmpty then { p with stall := none }
  else if p.credit = 0 ∧ p.stall.isNone then { p with stall := some stallTime }
  else p

/-- The end of an event of the port: the next sync report, then the resync (R148), then the stall timer. -/
def TargetPort.finish (view : ModSet × List Key) (buttons : ButtonSet) (size : DeskSize) (stallTime : Nat)
    (p : TargetPort) : TargetPort :=
  ((p.syncStep buttons).resyncStep view buttons size).stallStep stallTime

end Sys2Proof.Machine
end

