-- ==== Sys2Proof/Machine/State.lean ====
section
/-! DEFINITION. The whole state of the part, the state after power-on, and the reasons a command can stop. -/

namespace Sys2Proof.Machine

/-- The part's state. Every field's rule stands in INVENTORY.md, "State". -/
structure State where
  /-- The commands that are waiting, first in, first out: the model's own. -/
  pending       : List Instr
  /-- The frames that have left on the lanes, oldest first: the model's own record (R106; notes/assumptions/9.md). -/
  sent          : List OutFrame
  /-- RESET_N is asserted (R176). -/
  resetAsserted : Bool
  /-- CFGT as sampled (R165). -/
  cfgt          : Target
  /-- LOCK as sampled (R165). -/
  lockStrap     : Bool
  /-- The active layout (R1). -/
  active        : Layout
  /-- The edit layout (R1). -/
  edit          : Layout
  /-- The hold owner (R10). -/
  holdOwner     : Option Target
  /-- Band budgets (R4). -/
  budgets       : Vector Nat 6
  /-- Policy fields of TARGETS (R166). -/
  policies      : Vector TargetPolicy 8
  /-- CONSOLES (R36). -/
  consoles      : Vector ConsoleEntry 4
  /-- HOTKEYS (R62). -/
  hotkeys       : Vector HotkeyEntry 24
  /-- PRESETS (R76). -/
  presets       : Vector PresetEntry 8
  /-- DESK (R169). -/
  desk          : DeskEntry
  /-- Console ports (R23). -/
  ports         : Vector ConsolePort 4
  /-- The merge engine's rotation pointer (R30). -/
  mergeLast     : Port
  /-- The hotkey detector (R64). -/
  detector      : Detector
  /-- Key-state tables and button records (R39, R40). -/
  keyStates     : Vector KeyState 8
  /-- The focus record (R49). -/
  focus         : Focus
  /-- The glide unit (R79). -/
  glide         : Glide
  /-- Target ports (R101). -/
  targets       : Vector TargetPort 8
  /-- The desk state (R156). -/
  deskState     : DeskState
  /-- The idle timer, in minutes (R156). -/
  idleTimer     : Option Nat
  /-- Video heads (R123). -/
  heads         : Vector HeadState 12
  /-- Display outputs (R132). -/
  displays      : Vector DisplayState 6
  /-- Window records of the compositor, the shown set among them (R130, R132). -/
  windows       : Vector WindowState 8
  /-- The control engine's rotation pointer (R163). -/
  ctrlLast      : Target
  /-- The DESK_RESET or STATUS_READ the control engine is executing, between its parts (R163, R172, R177, R178); `none` while the engine
  is free. -/
  executing     : Option Execution
  /-- Notice subject sets by kind (R173); a kind's flag is set exactly while its set is not empty. -/
  notices       : Vector SubjectSet 8
  /-- The subscription set (R173). -/
  subscribers   : TargetSet
  deriving DecidableEq, Repr

/-- Reasons a command stops the model with a fault: none, because no rule of the manual stops the part and every command runs on all
its operands. -/
inductive Fault where
  deriving DecidableEq, Repr

/-- Reasons a command has no meaning. -/
inductive Refusal where
  /-- An arm of `exec` without a meaning. Safe. No arm raises it: every row of the table is modelled. -/
  | notModelled (mnemonic : String)
  deriving DecidableEq, Repr

/-- The state after power-on with the given straps (R9, R23, R30, R36, R39, R49, R62, R64, R76, R79, R101, R123, R130, R132,
R156, R163, R165, R166, R169, R173, R176). The pointer stands at (960.0, 540.0) on DO0 and T0 has focus (R49). -/
def State.powerOn (cfgt : Target) (lock : Bool) : State where
  pending := []
  sent := []
  resetAsserted := false
  cfgt := cfgt
  lockStrap := lock
  active := powerOnLayout
  edit := powerOnLayout
  holdOwner := none
  budgets := powerOnBudgets
  policies := powerOnPolicies cfgt
  consoles := powerOnConsoles
  hotkeys := powerOnHotkeys
  presets := powerOnPresets
  desk := powerOnDesk
  ports := Vector.ofFn fun _ => ConsolePort.initial
  mergeLast := 3
  detector := Detector.initial
  keyStates := Vector.ofFn fun _ => KeyState.initial
  focus := Focus.initial
  glide := Glide.at 960 540
  targets := Vector.ofFn fun _ => TargetPort.initial
  deskState := .awake
  idleTimer := none
  heads := Vector.ofFn fun _ => HeadState.initial
  displays := Vector.ofFn fun _ => DisplayState.initial
  windows := Vector.ofFn fun _ => WindowState.initial
  ctrlLast := 7
  executing := none
  notices := Vector.ofFn fun _ => 0
  subscribers := 0

/-- The machine right after power-on, with the straps that notes/assumptions/1.md names. -/
def State.reset : State := State.powerOn Config.resetCfgt Config.resetLock

end Sys2Proof.Machine
end

