-- ==== Sys2Proof/Machine/Flags.lean ====
section
/-! DEFINITION. The notice record: flags, subject sets and the raise (R173, R174), with the codes of kinds, replies and other
enumerated values that frames and records carry (R180). -/

namespace Sys2Proof.Machine

/-- The kinds in priority order (R173). -/
def noticeKinds : List NoticeKind :=
  [.wakeFailed, .targetStalled, .deliveryOverflow, .laneError, .consoleOverrun, .geometryMismatch, .windowStale, .focusChanged]

/-- The place of a kind in the notice record; its code is one more (R180). -/
def NoticeKind.index : NoticeKind → Fin 8
  | .wakeFailed => 0
  | .targetStalled => 1
  | .deliveryOverflow => 2
  | .laneError => 3
  | .consoleOverrun => 4
  | .geometryMismatch => 5
  | .windowStale => 6
  | .focusChanged => 7

/-- The kind of a code 1..8 (R180). -/
def noticeKindOf (code : Nat) : Option NoticeKind := if code = 0 then none else noticeKinds[code - 1]?

/-- The subjects a kind can have (R173, R180). -/
def NoticeKind.subjects : NoticeKind → SubjectSet
  | .wakeFailed => 0x00FF
  | .targetStalled => 0x00FF
  | .deliveryOverflow => 0x00FF
  | .laneError => 0x0FFF
  | .consoleOverrun => 0x000F
  | .geometryMismatch => 0x003F
  | .windowStale => 0x00FF
  | .focusChanged => 0x00FF

/-- The subject set of a kind. -/
def State.subjects (s : State) (k : NoticeKind) : SubjectSet := s.notices[k.index]

/-- A kind's flag: set while its subject set is not empty (R173; notes/assumptions/25.md). -/
def State.noticeFlag (s : State) (k : NoticeKind) : Bool := s.subjects k != 0

/-- Some notice flag is set (R158). -/
def State.anyNotice (s : State) : Bool := noticeKinds.any s.noticeFlag

/-- The highest-priority kind whose flag is set (R174). -/
def State.pendingKind (s : State) : Option NoticeKind := noticeKinds.find? s.noticeFlag

/-- The subject number of a kind that R180 gives a port of each sort in LANE_ERROR; other kinds count their subjects from 0. -/
def targetLaneSubject (t : Target) : Fin 16 := ⟨t.val + 4, by omega⟩

/-- The subject number of a console port (R180). -/
def portSubject (p : Port) : Fin 16 := ⟨p.val, by omega⟩

/-- The subject number of a target or a window (R180). -/
def eightSubject (t : Fin 8) : Fin 16 := ⟨t.val, by omega⟩

/-- The subject number of a display (R180). -/
def displaySubject (d : Display) : Fin 16 := ⟨d.val, by omega⟩

/-- The targets a T_NOTICE is sent to: subscribed, permitted and ATTACHED (R173). -/
def State.noticeTargets (s : State) : List Target :=
  (List.finRange 8).filter fun t => has s.subscribers t && s.policies[t].permit && s.targets[t].attached

/-- A raise of kind k with a subject (R173): the subject joins the set, and a new subject sends one T_NOTICE, carrying the set
after the raise, to each subscribed, permitted and ATTACHED target, in target order (notes/assumptions/21.md). -/
def State.raise (k : NoticeKind) (subject : Fin 16) (s : State) : State :=
  let after := adjoin (s.subjects k) subject
  { s with
    notices := upd s.notices k.index fun _ => after
    sent := s.sent ++ (if has (s.subjects k) subject then [] else s.noticeTargets.map fun t => .notice t k after) }

/-! ## Codes (R180) -/

/-- Reply codes (R180). -/
def ReplyCode.code : ReplyCode → Byte
  | .ok => 0
  | .busy => 1
  | .notPermitted => 2
  | .badCommand => 3
  | .badValue => 4
  | .locked => 5
  | .needHold => 6
  | .notHeld => 7
  | .layoutInvalid => 8
  | .notEnabled => 9

/-- Power state codes (R180). -/
def Power.code : Power → Nat
  | .absent => 0
  | .active => 1
  | .suspended => 2
  | .waking => 3

/-- Presentation mode codes (R180). -/
def modeCode : Mode → Nat
  | .boot => 0
  | .report => 1
  | .absolute => 2

/-- Head lock state codes (R180). -/
def LockState.code : LockState → Nat
  | .noSignal => 0
  | .locking => 1
  | .locked => 2

/-- Console class codes; NONE is reported as 3 (R180). -/
def classCode : Option PortClass → Nat
  | some .keyboard => 0
  | some .pointer => 1
  | some .keypad => 2
  | none => 3

/-- Focus cause codes (R180). -/
def Cause.code : Cause → Nat
  | .glide => 0
  | .window => 1
  | .hotkey => 2
  | .control => 3
  | .layout => 4
  | .reset => 5

/-- Region codes (R180): 0..5 screens, 8..15 windows. -/
def Region.code : Region → Nat
  | .screen d => d.val
  | .window w => 8 + w.val

/-- Desk state codes (R180). -/
def DeskState.code : DeskState → Nat
  | .awake => 0
  | .idle => 1

end Sys2Proof.Machine
end

