-- ==== Sys2Proof/Machine/Ops.lean ====
section
/-! DEFINITION. The named operations over State that the meanings share: one entry of a store changed, frames sent, C_LEDS,
offers and the end of a port's event, wake requests, clearing input, teardown, and abandoning the hold. -/

namespace Sys2Proof.Machine

/-- How a command that completes answers: f of the state, or the state unchanged while RESET_N is asserted, when every frame is
discarded without notice and no timer runs (R176; notes/assumptions/6.md). -/
def running (s : State) (f : State → State) : Host.Outcome State Fault Refusal := .next (if s.resetAsserted then s else f s)

/-! ## One entry of a store -/

/-- Console port p changed by f. -/
def State.modPort (p : Port) (f : ConsolePort → ConsolePort) (s : State) : State := { s with ports := upd s.ports p f }

/-- Target port t changed by f. -/
def State.modTarget (t : Target) (f : TargetPort → TargetPort) (s : State) : State := { s with targets := upd s.targets t f }

/-- Key-state table and button record of t changed by f. -/
def State.modKeys (t : Target) (f : KeyState → KeyState) (s : State) : State := { s with keyStates := upd s.keyStates t f }

/-- Head h changed by f. -/
def State.modHead (h : Head) (f : HeadState → HeadState) (s : State) : State := { s with heads := upd s.heads h f }

/-- Display d changed by f. -/
def State.modDisplay (d : Display) (f : DisplayState → DisplayState) (s : State) : State :=
  { s with displays := upd s.displays d f }

/-- Window w's record changed by f. -/
def State.modWindow (w : Window) (f : WindowState → WindowState) (s : State) : State := { s with windows := upd s.windows w f }

/-! ## Frames sent -/

/-- A frame leaves on its lane. -/
def State.send (f : OutFrame) (s : State) : State := { s with sent := s.sent ++ [f] }

/-- A frame produced for target lane t; it is dropped when the port is UNATTACHED (R106). -/
def State.sendTo (t : Target) (f : OutFrame) (s : State) : State := if s.targets[t].attached then s.send f else s

/-- Port p's pin (R36); `none` is FOLLOW. -/
def State.pin (s : State) (p : Port) : Option Target := s.consoles[p].pin

/-- The target whose LED state port p shows (R37). -/
def State.ledTarget (s : State) (p : Port) : Target := (s.pin p).getD s.focus.target

/-- The console ports that are sent C_LEDS at all: ATTACHED, of class KEYBOARD (R37). -/
def State.showsLeds (s : State) (p : Port) : Bool := s.ports[p].attached && s.ports[p].cls = some .keyboard

/-- The C_LEDS of port p (R37). -/
def State.ledFrame (s : State) (p : Port) : OutFrame := .leds p s.targets[s.ledTarget p].leds

/-- One C_LEDS to each keyboard port that c picks (R38), in port order (notes/assumptions/21.md). -/
def State.sendLeds (c : Port → Bool) (s : State) : State :=
  { s with sent := s.sent ++ ((List.finRange 4).filter fun p => s.showsLeds p && c p).map s.ledFrame }

/-- C_LEDS to the ports that follow focus (R38). -/
def State.ledsToFollowers (s : State) : State := s.sendLeds fun p => (s.pin p).isNone

/-- C_LEDS after t's LED state is set: to every port that shows t (R38). -/
def State.ledsOfTarget (t : Target) (s : State) : State := s.sendLeds fun p => s.ledTarget p = t

/-! ## Views, buttons and following ports -/

/-- t's keyboard view (R42). -/
def State.view (s : State) (t : Target) : ModSet × List Key := s.keyStates[t].view s.targets[t].mode

/-- t's button set (R40). -/
def State.buttonSet (s : State) (t : Target) : ButtonSet := s.keyStates[t].buttonSet

/-- t's desktop in the active layout (R6). -/
def State.desktop (s : State) (t : Target) : DeskSize := s.active.desktops[t]

/-- The ports whose pin is FOLLOW (R44). -/
def State.following (s : State) : PortSet := maskOf 4 fun p => (s.pin p).isNone

/-- A following button is held (R47). -/
def State.followingHeld (s : State) : Bool := (List.finRange 4).any fun p => (s.pin p).isNone && s.ports[p].held != 0

/-! ## Offers and the end of a port's event -/

/-- The end of an event of target port t (R112, R114, R118; notes/assumptions/13.md). -/
def State.portEnd (t : Target) (s : State) : State :=
  s.modTarget t fun p => p.finish (s.view t) (s.buttonSet t) (s.desktop t) s.desk.stallTime

/-- A report offered for t: to the delivery queue while ACTIVE, to the hold queue while WAKING, to nothing otherwise
(R96, R109, R153). -/
def State.offerReport (t : Target) (r : Report) (s : State) : State :=
  match s.targets[t].power with
  | .active =>
    let s1 := s.modTarget t (TargetPort.offer s.desk.coalesce r)
    let s2 := if s.targets[t].overflows s.desk.coalesce r then s1.raise .deliveryOverflow (eightSubject t) else s1
    s2.portEnd t
  | .waking => s.modTarget t (TargetPort.offerHold r)
  | .absent => s
  | .suspended => s

/-- One T_KEYS for t if its view is no longer what it was (R42). -/
def State.announceView (before : ModSet × List Key) (t : Target) (s : State) : State :=
  if s.view t = before then s else s.offerReport t (.keys (s.view t).1 (s.view t).2)

/-- A button report of t's present button set (R43). -/
def State.buttonReport (t : Target) (s : State) : State :=
  s.offerReport t (s.targets[t].stillReport (s.desktop t) 0 (s.buttonSet t))

/-! ## Wake requests (R150) -/

/-- A wake request for t (R150): only a SUSPENDED target takes it. -/
def State.wakeRequest (t : Target) (s : State) : State :=
  match s.targets[t].power with
  | .suspended =>
    (s.sendTo t (.wake t)).modTarget t fun p => { p with power := .waking, retry := 0, wakeTimer := some s.desk.wakeTimeout }
  | .waking => s
  | .active => s
  | .absent => s

/-! ## Clearing input, the hold, teardown -/

/-- t's input state is cleared into the suppressed sets of the ports that held it (R48). -/
def State.clearInput (t : Target) (s : State) : State :=
  let ks := s.keyStates[t]
  { s with
    ports := updAll s.ports fun p port => port.suppressAll (ks.keysOf p) (ks.modsOf p) (ks.buttonsOf p)
    keyStates := upd s.keyStates t KeyState.clear }

/-- The edit layout equals the active layout and no hold is open (R14). -/
def State.abandonHold (s : State) : State := { s with edit := s.active, holdOwner := none }

/-- An open hold of t is abandoned (R15). -/
def State.abandonHoldOf (t : Target) (s : State) : State := if s.holdOwner = some t then s.abandonHold else s

/-- What teardown leaves of a target port: mode and last target point are kept (R104). -/
def TargetPort.tornDown (p : TargetPort) : TargetPort :=
  { p.clearSync with
    attached := false, power := .absent, queue := [], hold := [], credit := 0, resync := false, stall := none, leds := 0,
    wakeTimer := none, retry := 0, inbox := none }

/-- A command of t being executed loses its reply, and its remaining parts go on (R164, R178). -/
def State.dropReply (t : Target) (s : State) : State :=
  { s with executing := s.executing.map (Execution.afterTeardown t) }

/-- Teardown of t (R104, R164, R178). -/
def State.teardown (t : Target) (s : State) : State :=
  ((((s.clearInput t).modTarget t TargetPort.tornDown).abandonHoldOf t).dropReply t).ledsOfTarget t

end Sys2Proof.Machine
end

