-- ==== Sys2Proof/Machine/Regions.lean ====
section
/-! DEFINITION. Effective geometry (R127), window rectangles (R7), the region under a point (R8), its target and who holds a point
(R50), first regions (R57) and translation (R92). All read the active layout (R1). -/

namespace Sys2Proof.Machine

/-- Effective geometry of a head as the base of display d (R127). -/
def State.baseGeometry (s : State) (d : Display) (h : Head) : Geometry :=
  match s.heads[h].measured with
  | some g => g
  | none => ⟨s.active.displays[d].width * 2 ^ s.active.displays[d].shift, s.active.displays[d].height * 2 ^ s.active.displays[d].shift⟩

/-- Effective geometry of a head as the source of a window: 0 × 0 before its first lock since reset (R127). -/
def State.sourceGeometry (s : State) (h : Head) : Geometry := s.heads[h].measured.getD ⟨0, 0⟩

/-- A window's rectangle on its display, clipped (R7). -/
def State.windowRect (s : State) (w : Window) : Rect :=
  let win := s.active.windows[w]
  let g := s.sourceGeometry win.source
  let disp := s.active.displays[win.display]
  ⟨win.x, win.y, min (g.w / 2 ^ win.shift) (disp.width - win.x), min (g.h / 2 ^ win.shift) (disp.height - win.y)⟩

/-- The window is drawn and hit-tested: enabled, in the shown set, and not empty (R7). -/
def State.windowDrawn (s : State) (w : Window) : Bool :=
  s.active.windows[w].enabled && s.windows[w].shown && !(s.windowRect w).isEmpty

/-- A window's rectangle on the desk plane, when its display is placed (R7). -/
def State.windowOnDesk (s : State) (w : Window) : Option Rect :=
  (s.active.placeOf s.active.windows[w].display).map fun p =>
    let scr := s.active.screen p
    let r := s.windowRect w
    ⟨scr.x + r.x, scr.y + r.y, r.w, r.h⟩

/-- The window is drawn and its desk-plane rectangle contains the point (R8). -/
def State.windowAt (s : State) (x y : Nat) (w : Window) : Bool :=
  s.windowDrawn w && match s.windowOnDesk w with
    | some r => r.contains x y
    | none => false

/-- The highest-numbered window that c picks. -/
def topWindow (c : Window → Bool) : Option Window := (List.finRange 8).reverse.find? c

/-- The region of a point of the desk plane (R8). -/
def State.regionAt (s : State) (x y : Nat) : Option Region :=
  (s.active.lookup x y).map fun p =>
    match topWindow fun w => s.active.windows[w].display = p.display && s.windowAt x y w with
    | some w => .window w
    | none => .screen p.display

/-- The target is ABSENT. -/
def State.isAbsent (s : State) (t : Target) : Bool := s.targets[t].power = .absent

/-- The source owner of an interactive window, when that owner is not ABSENT (R50). -/
def State.liveWindowOwner (s : State) (w : Window) : Option Target :=
  if s.active.windows[w].interactive then (s.active.windowOwner w).filter fun t => !s.isAbsent t else none

/-- The target of a region (R50). -/
def State.regionTarget (s : State) : Region → Option Target
  | .screen d => s.active.displayOwner d
  | .window w =>
    match s.liveWindowOwner w with
    | some t => some t
    | none => s.active.displayOwner s.active.windows[w].display

/-- A press made in the region is swallowed: a view-only window, or an interactive one whose source owner is ABSENT (R91). -/
def State.swallows (s : State) : Region → Bool
  | .screen _ => false
  | .window w => (s.liveWindowOwner w).isNone

/-- A drawn interactive window whose source head t owns and which contains the point (R50). -/
def State.windowOfAt (s : State) (t : Target) (x y : Nat) (w : Window) : Bool :=
  s.active.windows[w].interactive && s.active.windowOwner w = some t && s.windowAt x y w

/-- t owns the screen at the point (R50). -/
def State.ownsScreenAt (s : State) (t : Target) (x y : Nat) : Bool :=
  match s.active.lookup x y with
  | some p => s.active.displayOwner p.display = some t
  | none => false

/-- t holds the point (R50). -/
def State.holdsPoint (s : State) (t : Target) (x y : Nat) : Bool :=
  s.ownsScreenAt t x y || (List.finRange 8).any fun w => s.windowOfAt t x y w

/-- The warp point of the first region of t, or none (R57). -/
def State.firstRegion (s : State) (t : Target) : Option (Nat × Nat) :=
  match (List.finRange 6).findSome? fun d =>
      if s.active.displayOwner d = some t then (s.active.placeOf d).map fun p => (s.active.screen p).centre else none with
  | some q => some q
  | none =>
    (List.finRange 8).findSome? fun w =>
      if s.active.windows[w].interactive && s.active.windowOwner w = some t && s.windowDrawn w then
        (s.windowOnDesk w).map Rect.centre
      else none

/-- A point of a screen translated through its base head (R92). -/
def State.translateBase (s : State) (p : Place) (x y : Nat) : Option (Nat × Nat) :=
  s.active.displays[p.display].base.map fun h =>
    let g := s.baseGeometry p.display h
    let hd := s.active.heads[h]
    let scr := s.active.screen p
    let k := 2 ^ s.active.displays[p.display].shift
    (hd.originX + min ((x - scr.x) * k) (g.w - 1), hd.originY + min ((y - scr.y) * k) (g.h - 1))

/-- A point of a window translated through its source head (R92). -/
def State.translateWindow (s : State) (w : Window) (x y : Nat) : Option (Nat × Nat) :=
  (s.windowOnDesk w).map fun r =>
    let win := s.active.windows[w]
    let g := s.sourceGeometry win.source
    let hd := s.active.heads[win.source]
    let k := 2 ^ win.shift
    (hd.originX + min ((x - r.x) * k) (g.w - 1), hd.originY + min ((y - r.y) * k) (g.h - 1))

/-- A desk point translated for target t, through the region R92 chooses. R50 leaves the focus target holding the point; where t
holds nothing there, no point is translated (notes/assumptions/16.md). -/
def State.translate (s : State) (t : Target) (x y : Nat) : Option (Nat × Nat) :=
  match s.regionAt x y with
  | none => none
  | some r =>
    match (match r with
      | .window w => if s.active.windows[w].interactive && s.active.windowOwner w = some t then some w else none
      | .screen _ => none) with
    | some w => s.translateWindow w x y
    | none =>
      match (s.active.lookup x y).filter fun p => s.active.displayOwner p.display = some t with
      | some p => s.translateBase p x y
      | none =>
        match topWindow fun w => s.windowOfAt t x y w with
        | some w => s.translateWindow w x y
        | none => none

/-- The pointer's integer point (00_scope.md, Desk coordinates). -/
def State.pointer (s : State) : Nat × Nat := (s.glide.px / 16, s.glide.py / 16)

/-- The region at the pointer recorded in the focus record. The pointer always lies in a screen (R79); where it did not, the field
would stand (notes/assumptions/17.md). -/
def State.recordRegion (s : State) : State :=
  { s with focus := { s.focus with region := (s.regionAt s.pointer.1 s.pointer.2).getD s.focus.region } }

end Sys2Proof.Machine
end

