-- ==== Sys2Proof/Machine/Focus.lean ====
section
/-! DEFINITION. The focus unit: presses and releases (R44 to R47), the focus switch and its entry (R51 to R55, R97), pointer
reports of a target (R93 to R98), the directed focus change (R58) and region re-evaluation (R60). -/

namespace Sys2Proof.Machine

/-! ## Presses and releases -/

/-- Whether a press routed to t is taken, by t's power state and wake policy; a WAKE_ON_KEY target's wake is started first
(R45). -/
def State.acceptPress (t : Target) (s : State) : State × Bool :=
  match s.targets[t].power with
  | .absent => (s, false)
  | .suspended => if s.policies[t].wakePolicy = .onKey then (s.wakeRequest t, true) else (s, false)
  | .active => (s, true)
  | .waking => (s, true)

/-- A press of an item on port p routed to t: booked, or refused into the port's suppressed set (R45, R47). -/
def State.bookPress (p : Port) (t : Target) (i : Item) (s : State) : State :=
  let a := s.acceptPress t
  if a.2 then
    match a.1.keyStates[t].press p i with
    | some ks => a.1.modKeys t fun _ => ks
    | none => a.1.modPort p (ConsolePort.suppress i)
  else a.1.modPort p (ConsolePort.suppress i)

/-- A key or modifier press routed to t, with the T_KEYS of a changed view (R42, R45). -/
def State.keyPress (p : Port) (t : Target) (i : KeyItem) (s : State) : State :=
  (s.bookPress p t i.item).announceView (s.view t) t

/-- The target at which port p holds the item (R46); R41 makes it the only one. -/
def State.holder (s : State) (p : Port) (i : Item) : Option Target :=
  (List.finRange 8).find? fun t => s.keyStates[t].holds p i

/-- A key or modifier release from port p: absorbed by the suppressed set, or taken at the target holding it (R46). -/
def State.keyRelease (p : Port) (i : KeyItem) (s : State) : State :=
  if s.ports[p].suppressed i.item then s.modPort p (ConsolePort.unsuppress i.item)
  else
    match s.holder p i.item with
    | some t => (s.modKeys t (KeyState.release p i.item)).announceView (s.view t) t
    | none => s

/-- A button release from port p, accounted without a report (R47). -/
def State.buttonRelease (p : Port) (b : Button) (s : State) : State :=
  if s.ports[p].suppressed (.button b) then s.modPort p (ConsolePort.unsuppress (.button b))
  else
    match s.holder p (.button b) with
    | some t => s.modKeys t (KeyState.release p (.button b))
    | none => s

/-- A button press from port p, routed to a target or swallowed (`none`), accounted without a report (R47, R91). -/
def State.buttonPress (p : Port) (dest : Option Target) (b : Button) (s : State) : State :=
  match dest with
  | some t => s.bookPress p t (.button b)
  | none => s.modPort p (ConsolePort.suppress (.button b))

/-! ## Pointer reports of a target (R93 to R98) -/

/-- The last target point is set (R93). -/
def State.setLast (t : Target) (q : Nat × Nat) (s : State) : State :=
  s.modTarget t fun p => { p with lx := q.1, ly := q.2 }

/-- An entry-sync request is handed to t's port, which takes it as one event (R117, R118). -/
def State.requestSync (t : Target) (s : State) : State :=
  (s.modTarget t (TargetPort.requestSync (s.desktop t))).portEnd t

/-- The report of a complete sync record: a clamped delta (R95). -/
def State.deltaReport (s : State) (t : Target) (q : Nat × Nat) (wheel : Int) : Report :=
  let p := s.targets[t]
  .rel (clampDelta p.mode ((q.1 : Int) - p.lx)) (clampDelta p.mode ((q.2 : Int) - p.ly)) (wheelIn p.mode wheel)
    (buttonsIn p.mode (s.buttonSet t)) false

/-- The zero-motion report, or for an ABSOLUTE target the T_ABS at the last target point, with a wheel (R94, R98). -/
def State.stillReport (s : State) (t : Target) (wheel : Int) : Report :=
  s.targets[t].stillReport (s.desktop t) wheel (s.buttonSet t)

/-- The report of a point (tx, ty) for t in its mode: `changed` says that the event changed t's button set, `entry` that the report
is the entry of a switch (R94, R95, R97, R98; notes/assumptions/18.md). The last target point becomes the point in every case (R93). -/
def State.pointerReport (t : Target) (q : Nat × Nat) (wheel : Int) (changed entry : Bool) (s : State) : State :=
  let s1 := s.setLast t q
  if isRelative s.targets[t].mode then
    if entry || s.targets[t].sync.phase = .cleared then
      let s2 := s1.requestSync t
      if changed then s2.buttonReport t else s2
    else if s.targets[t].sync.phase = .complete then s1.offerReport t (s.deltaReport t q wheel)
    else if changed || wheel != 0 then s1.offerReport t (s1.stillReport t wheel)
    else s1
  else s1.offerReport t (s1.stillReport t wheel)

/-! ## The focus switch -/

/-- The history after a switch from a to b (R51). -/
def pushHistory (a b : Target) (h : List Target) : List Target :=
  ((a :: h.filter fun t => t != a).filter fun t => t != b).take Config.historyDepth

/-- What port p carries to b in a switch from a: its modifiers at a that are no trigger modifiers, when b is ACTIVE or WAKING
(step 2 of R52). -/
def State.carried (s : State) (a b : Target) (trigger : ModSet) (p : Port) : ModSet :=
  if (s.pin p).isNone && (s.targets[b].power = .active || s.targets[b].power = .waking) then
    minus (s.keyStates[a].modsOf p) trigger
  else 0

/-- Step 1 of R52: the following ports leave a; one T_KEYS if the view changed, then one button report if the button set did. -/
def State.leave (a : Target) (s : State) : State :=
  let s1 := s.modKeys a (KeyState.dropPorts s.following)
  let s2 := s1.announceView (s.view a) a
  if s2.buttonSet a = s.buttonSet a then s2 else s2.buttonReport a

/-- Step 2 of R52, `before` being the state the switch was taken in: items taken from the following ports join their suppressed
sets, less the carried modifiers, which join b's record with one T_KEYS if b's view changed. -/
def State.carryOver (s before : State) (a b : Target) (trigger : ModSet) : State :=
  let ks := before.keyStates[a]
  let kept := before.carried a b trigger
  let s1 := { s with
    ports := updAll s.ports fun p port =>
      if (before.pin p).isNone then port.suppressAll (ks.keysOf p) (minus (ks.modsOf p) (kept p)) (ks.buttonsOf p) else port
    keyStates := upd s.keyStates b (KeyState.carry kept) }
  s1.announceView (s.view b) b

/-- Steps 3 to 6 of R53, with the glide unit's accumulator cleared and a's sync abandoned (R53, R87, R120). -/
def State.arrive (a b : Target) (cause : Cause) (region : Region) (s : State) : State :=
  let s1 := { s with
    focus := { s.focus with target := b, cause := cause, region := region, history := pushHistory a b s.focus.history }
    glide := { s.glide with pressure := none } }
  let s2 := ((s1.modTarget a TargetPort.abandonSync).ledsToFollowers).raise .focusChanged (eightSubject b)
  if s.policies[b].wakePolicy = .onFocus then s2.wakeRequest b else s2

/-- A focus switch to b, less b's entry (R52, R53). A request for the present focus target performs no switch (R55). -/
def State.switchTo (b : Target) (cause : Cause) (trigger : ModSet) (region : Region) (s : State) : State :=
  let a := s.focus.target
  if b = a then s else ((s.leave a).carryOver s a b trigger).arrive a b cause region

/-- The point an entry is formed from (R97): the detached pointer's when focus is detached, else the desk pointer's, translated. -/
def State.entryPoint (s : State) (b : Target) : Option (Nat × Nat) :=
  if s.focus.detached then s.glide.detached.map fun d => (d.1 / 16, d.2 / 16)
  else s.translate b s.pointer.1 s.pointer.2

/-- b's entry, formed outside a pointer event: wheel 0 and no button change (R97). -/
def State.entry (b : Target) (s : State) : State :=
  match s.entryPoint b with
  | some q => s.pointerReport b q 0 false true
  | none => s

/-- A focus switch to b with its entry (R52, R53, R97). -/
def State.switch (b : Target) (cause : Cause) (trigger : ModSet) (region : Region) (s : State) : State :=
  if b = s.focus.target then s else (s.switchTo b cause trigger region).entry b

/-! ## Directed change and re-evaluation -/

/-- The region at the pointer, or the one recorded. -/
def State.regionHere (s : State) : Region := (s.regionAt s.pointer.1 s.pointer.2).getD s.focus.region

/-- The desk pointer warps to a point, fractions 0, and focus is no longer detached (R58). -/
def State.warp (q : Nat × Nat) (s : State) : State :=
  { s with
    glide := { s.glide with px := q.1 * 16, py := q.2 * 16, detached := none }
    focus := { s.focus with detached := false } }

/-- Focus becomes detached, its pointer at the centre of t's desktop (R58). -/
def State.detach (t : Target) (s : State) : State :=
  { s with
    glide := { s.glide with detached := some (s.active.desktops[t].dw / 2 * 16, s.active.desktops[t].dh / 2 * 16) }
    focus := { s.focus with detached := true } }

/-- A directed focus change to t (R58), concluded by the re-evaluation that records the region only (R60). -/
def State.directed (t : Target) (cause : Cause) (trigger : ModSet) (s : State) : State :=
  match s.firstRegion t with
  | some q =>
    let s1 := s.warp q
    (s1.switch t cause trigger s1.regionHere).recordRegion
  | none => if t = s.focus.target then s else ((s.detach t).switch t cause trigger s.regionHere).recordRegion

/-- Region re-evaluation after an event that is no directed change (R60): the region is recorded, and an elective or obliged
switch is made as the conditions require. -/
def State.reevaluate (cause : Cause) (trigger : ModSet) (s : State) : State :=
  let s1 := s.recordRegion
  let f := s1.focus.target
  match s1.regionTarget s1.focus.region with
  | none => s1
  | some r =>
    if s1.focus.detached || r = f then s1
    else if s1.holdsPoint f s1.pointer.1 s1.pointer.2 && (s1.focus.lock || s1.followingHeld) then s1
    else s1.switch r cause trigger s1.focus.region

end Sys2Proof.Machine
end

