-- ==== Sys2Proof/Machine/Glide.lean ====
section
/-! DEFINITION. The glide unit (spec 05): pointer events through the stages of R81, and detached and pinned motion (R99, R100). -/

namespace Sys2Proof.Machine

/-- A pointer event as the merge engine hands it on (R33, R81). -/
structure PointerEvent where
  port     : Port
  dx       : Int
  dy       : Int
  wheel    : Int
  buttons  : ButtonSet
  releases : ButtonSet
  presses  : ButtonSet
  deriving DecidableEq, Repr

/-! ## Arithmetic (R82, R83) -/

/-- The gain of an event of port p (R82). -/
def State.gain (s : State) (p : Port) (dx dy : Int) : Int :=
  let e := s.consoles[p]
  if dx.natAbs + dy.natAbs < e.threshold then e.gainSlow else e.gainFast

/-- The scaled step (R83). -/
def State.scaledStep (s : State) (p : Port) (dx dy : Int) : Int × Int :=
  let g := s.gain p dx dy
  (clamp (-Config.stepClamp) Config.stepClamp (dx * g), clamp (-Config.stepClamp) Config.stepClamp (dy * g))

/-- One axis of a candidate clamped to an interval lo..hi−1 of desk units (R88). -/
def clampAxis (lo hi : Nat) (q : Int) : Nat :=
  if q / 16 < lo then lo * 16 else if (hi : Int) ≤ q / 16 then (hi - 1) * 16 + 15 else q.toNat

/-- A candidate clamped to a rectangle (R88). -/
def Rect.clampPoint (r : Rect) (q : Int × Int) : Nat × Nat :=
  (clampAxis r.x (r.x + r.w) q.1, clampAxis r.y (r.y + r.h) q.2)

/-- The candidate's screen: none outside the desk plane, else by lookup (R83, R85). -/
def State.candidatePlace (s : State) (q : Int × Int) : Option Place :=
  let cx := q.1 / 16
  let cy := q.2 / 16
  if 0 ≤ cx ∧ cx ≤ 32767 ∧ 0 ≤ cy ∧ cy ≤ 16383 then s.active.lookup cx.toNat cy.toNat else none

/-! ## Settling the position (R84 to R88) -/

/-- The step on the pressed edge's axis is directed away from that edge (R87). -/
def awayFrom (e : Edge) (sx sy : Int) : Bool :=
  match e with
  | .right => sx < 0
  | .left => 0 < sx
  | .bottom => sy < 0
  | .top => 0 < sy

/-- The test at the start of stage 2 that clears the accumulator (R87; notes/assumptions/14.md). -/
def State.awayTest (sx sy : Int) (s : State) : State :=
  match s.glide.pressure with
  | some pr => if awayFrom pr.edge sx sy then { s with glide := { s.glide with pressure := none } } else s
  | none => s

/-- How far a coordinate lies beyond the low or high edge of an interval, and beyond which (R87). -/
def axisOvershoot (lo hi : Nat) (low high : Edge) (c : Int) : Int × Edge :=
  if c < lo then (lo - c, low) else if (hi : Int) ≤ c then (c - (hi - 1), high) else (0, low)

/-- The overshoot of a candidate's integer point beyond a screen and its pressed edge; on equal overshoots the x edge (R87). -/
def Rect.overshoot (r : Rect) (cx cy : Int) : Nat × Edge :=
  let ox := axisOvershoot r.x (r.x + r.w) .left .right cx
  let oy := axisOvershoot r.y (r.y + r.h) .top .bottom cy
  if oy.1 ≤ ox.1 then (ox.1.toNat, ox.2) else (oy.1.toNat, oy.2)

/-- The accumulator after an attempt toward display d (R87). -/
def addPressure (old : Option Pressure) (d : Display) (o : Nat × Edge) : Pressure :=
  match old with
  | some pr => if pr.display = d then ⟨d, min Config.pressureMax (pr.amount + o.1), o.2⟩ else ⟨d, o.1, o.2⟩
  | none => ⟨d, o.1, o.2⟩

/-- The first five conditions of a crossing to a screen of target o (R86). -/
def State.crossingOpen (s : State) (o : Target) : Bool :=
  s.desk.glideEnable && s.holdOwner.isNone && !s.focus.lock && s.policies[o].glideIn && !s.isAbsent o

/-- The holding rectangle of target f at the pointer, on the screen of place p (R84). -/
def State.holdingRect (s : State) (f : Target) (p : Place) : Rect :=
  if s.active.displayOwner p.display = some f then s.active.screen p
  else match (topWindow fun w => s.windowOfAt f s.pointer.1 s.pointer.2 w).bind s.windowOnDesk with
    | some r => r
    | none => s.active.screen p

/-- The pointer takes a value and the accumulator another. -/
def State.place (q : Nat × Nat) (pressure : Option Pressure) (s : State) : State :=
  { s with glide := { s.glide with px := q.1, py := q.2, pressure := pressure } }

/-- The position settled from a candidate q, with the pointer on the screen of place p (R84 to R87). The flag says that the
position was settled by a crossing under R86. -/
def State.settleFrom (p : Place) (q : Int × Int) (s : State) : State × Bool :=
  let f := s.focus.target
  let screen := s.active.screen p
  let accepted := (q.1.toNat, q.2.toNat)
  let pr := s.glide.pressure
  if s.followingHeld then (s.place ((s.holdingRect f p).clampPoint q) pr, false)
  else if s.focus.lock && s.active.displayOwner p.display != some f then
    if (s.candidatePlace q).isSome && s.holdsPoint f (q.1 / 16).toNat (q.2 / 16).toNat then (s.place accepted pr, false)
    else (s.place ((s.holdingRect f p).clampPoint q) pr, false)
  else
    match s.candidatePlace q with
    | none => (s.place (screen.clampPoint q) pr, false)
    | some p' =>
      if p'.display = p.display then (s.place accepted pr, false)
      else
        match s.active.displayOwner p'.display with
        | none => (s.place (screen.clampPoint q) pr, false)
        | some o =>
          if o = f then (s.place accepted none, false)
          else if s.crossingOpen o then
            let added := addPressure pr p'.display (screen.overshoot (q.1 / 16) (q.2 / 16))
            if s.desk.resistance ≤ added.amount then (s.place accepted none, true)
            else (s.place (screen.clampPoint q) (some added), false)
          else (s.place (screen.clampPoint q) none, false)

/-- Stage 2 of R81: the away test, then the position. Outside every screen, where R79 never leaves the pointer, it stands
(notes/assumptions/17.md). -/
def State.settle (sx sy : Int) (s : State) : State × Bool :=
  let s1 := s.awayTest sx sy
  match s1.active.lookup s1.pointer.1 s1.pointer.2 with
  | some p => s1.settleFrom p ((s1.glide.px : Int) + sx, (s1.glide.py : Int) + sy)
  | none => (s1, false)

/-! ## Region and focus (R89, R90) -/

/-- Stage 3 of R81: the region at the settled point is recorded and focus follows it. `crossed` is settle's flag. The switch
leaves its entry to stage 5 (R97). -/
def State.followRegion (crossed : Bool) (s : State) : State :=
  let s1 := s.recordRegion
  let f := s1.focus.target
  match s1.regionTarget s1.focus.region with
  | none => s1
  | some r =>
    if r = f then s1
    else if crossed then s1.switchTo r .glide 0 s1.focus.region
    else if s1.holdsPoint f s1.pointer.1 s1.pointer.2 && (s1.focus.lock || s1.followingHeld) then s1
    else s1.switchTo r .window 0 s1.focus.region

/-! ## Buttons (R91, R43) -/

/-- Stage 4: the held set is the event's from here on (R47); the releases and then the presses, each in the order B1 to B5 (R91). -/
def State.accountButtons (e : PointerEvent) (dest : Option Target) (s : State) : State :=
  let s1 := s.modPort e.port fun port => { port with held := e.buttons }
  let s2 := (members e.releases).foldl (fun acc b => acc.buttonRelease e.port b) s1
  (members e.presses).foldl (fun acc b => acc.buttonPress e.port dest b) s2

/-- One button report for each target but the receiver whose button set is no longer what it was (R43, R47;
notes/assumptions/12.md). -/
def State.buttonReports (before : State) (receiver : Target) (s : State) : State :=
  ((List.finRange 8).filter fun t => t != receiver && s.buttonSet t != before.buttonSet t).foldl
    (fun acc t => acc.buttonReport t) s

/-- Stages 4 and 5: the buttons, the other targets' button reports, and the report of the point for the receiver. -/
def State.buttonsAndReport (e : PointerEvent) (dest : Option Target) (receiver : Target) (q : Option (Nat × Nat))
    (entry : Bool) (s : State) : State :=
  let s1 := s.accountButtons e dest
  let s2 := State.buttonReports s receiver s1
  match q with
  | some q => s2.pointerReport receiver q e.wheel (s1.buttonSet receiver != s.buttonSet receiver) entry
  | none => s2

/-- Stage 6: a release that leaves no following button held re-evaluates the region (R61). -/
def State.completeRelease (e : PointerEvent) (s : State) : State :=
  if e.releases != 0 && !s.followingHeld then s.reevaluate .window 0 else s

/-! ## Pointer events -/

/-- A pointer event of a following port while focus is not detached: the six stages of R81. -/
def State.followingMotion (e : PointerEvent) (s : State) : State :=
  let step := s.scaledStep e.port e.dx e.dy
  let settled := s.settle step.1 step.2
  let s3 := settled.1.followRegion settled.2
  let receiver := s3.focus.target
  let dest := if s3.swallows s3.focus.region then none else some receiver
  let q := s3.translate receiver s3.pointer.1 s3.pointer.2
  (s3.buttonsAndReport e dest receiver q (receiver != s.focus.target)).completeRelease e

/-- One axis of a point of a desktop, in sixteenths, clamped to 0..size × 16 − 1 (R99, R100). -/
def clampDesktop (size : Nat) (v : Int) : Nat := (clamp 0 ((size : Int) * 16 - 1) v).toNat

/-- A pointer event of a following port while focus is detached (R99). -/
def State.detachedMotion (e : PointerEvent) (s : State) : State :=
  let f := s.focus.target
  let step := s.scaledStep e.port e.dx e.dy
  let size := s.desktop f
  let d := s.glide.detached.getD (0, 0)
  let q := (clampDesktop size.dw (d.1 + step.1), clampDesktop size.dh (d.2 + step.2))
  let s1 := { s with glide := { s.glide with detached := some q } }
  (s1.buttonsAndReport e (some f) f (some (q.1 / 16, q.2 / 16)) false).completeRelease e

/-- A pointer event of a port pinned to target t (R100). -/
def State.pinnedMotion (e : PointerEvent) (t : Target) (s : State) : State :=
  let step := s.scaledStep e.port e.dx e.dy
  let size := s.desktop t
  let p := s.targets[t]
  let fr := s.glide.fractions[e.port]
  let q := (clampDesktop size.dw ((p.lx : Int) * 16 + fr.1 + step.1), clampDesktop size.dh ((p.ly : Int) * 16 + fr.2 + step.2))
  let s1 := { s with glide := { s.glide with fractions := upd s.glide.fractions e.port fun _ => (q.1 % 16, q.2 % 16) } }
  s1.buttonsAndReport e (some t) t (some (q.1 / 16, q.2 / 16)) false

/-- The glide unit takes a pointer event (R81). -/
def State.pointerEvent (e : PointerEvent) (s : State) : State :=
  match s.pin e.port with
  | some t => s.pinnedMotion e t
  | none => if s.focus.detached then s.detachedMotion e else s.followingMotion e

end Sys2Proof.Machine
end

