-- ==== Sys2Proof/Machine/Hotkeys.lean ====
section
/-! DEFINITION. The hotkey detector and its actions (spec 04). -/

namespace Sys2Proof.Machine

/-! ## Matching (R65, R66, R69, R71) -/

/-- Each left–right pair folded into its left member (R66). -/
def foldPairs (m : ModSet) : ModSet := (m ||| m >>> 4) &&& 0x0F#8

/-- The set with the other member of each of its pairs (R54, R67). -/
def closePairs (m : ModSet) : ModSet := m ||| m >>> 4 ||| m <<< 4

/-- A CHORD entry's set against the chord modifier set (R66). -/
def HotkeyEntry.modsMatch (e : HotkeyEntry) (held : ModSet) : Bool :=
  if e.sideBlind then foldPairs e.mods = foldPairs held else e.mods = held

/-- The trigger modifiers of a CHORD entry (R54, R67). -/
def HotkeyEntry.triggerMods (e : HotkeyEntry) : ModSet := if e.sideBlind then closePairs e.mods else e.mods

/-- The first enabled entry of a kind with this trigger, in index order, that c picks. -/
def State.findHotkey (s : State) (k : HotkeyKind) (i : KeyItem) (c : HotkeyEntry → Bool) : Option HotkeyEntry :=
  s.hotkeys.toList.find? fun e => e.enabled && e.kind = k && e.trigger = i && c e

/-- Port q's snapshot counts in the chord modifier sets of other ports' presses: its pin is FOLLOW (R66) and a snapshot of it has been
processed since the pin became FOLLOW (R78; notes/assumptions/26.md). -/
def State.chordPort (s : State) (q : Port) : Bool := (s.pin q).isNone && s.ports[q].inChord

/-- The chord modifier set of a press from port p, whose C_KEYS entry carries `mods` (R66, R78). -/
def State.chordMods (s : State) (p : Port) (mods : ModSet) : ModSet :=
  (List.finRange 4).foldl (fun acc q => if q != p && s.chordPort q then acc ||| s.ports[q].snapMods else acc) mods

/-! ## Actions (R72 to R77) -/

/-- A focus action's entry is refused by the focus lock (R72). -/
def State.lockRefuses (s : State) (e : HotkeyEntry) : Bool := s.focus.lock && !e.lockedOk

/-- A focus action toward target t: refused by the lock or by an ABSENT target, else a directed change (R72). -/
def State.focusAction (e : HotkeyEntry) (trigger : ModSet) (t : Target) (s : State) : State :=
  if s.lockRefuses e || s.isAbsent t then s else s.directed t .hotkey trigger

/-- The target FOCUS_NEXT chooses (R73). -/
def State.nextTarget (s : State) : Option Target :=
  ((rotation (succWrap s.focus.target)).take 7).find? fun t => !s.isAbsent t

/-- A target, window or preset argument (R62, R63: 0..7 for the actions that read it). -/
def HotkeyEntry.arg8 (e : HotkeyEntry) : Fin 8 := numFin 8 (by decide) e.argument

/-- The shown set as a set of windows (R130). -/
def State.shownSet (s : State) : WindowSet := maskOf 8 fun w => s.windows[w].shown

/-- The shown set becomes the given set less every window not enabled in the active layout (R77, R130). -/
def State.setShown (set : WindowSet) (s : State) : State :=
  { s with windows := updAll s.windows fun w r => { r with shown := has set w && s.active.windows[w].enabled } }

/-- WINDOW_TOGGLE (R75). -/
def State.windowToggle (w : Window) (trigger : ModSet) (s : State) : State :=
  if s.active.windows[w].enabled then
    (s.modWindow w fun r => { r with shown := !r.shown }).reevaluate .window trigger
  else s

/-- PRESET (R77; notes/assumptions/24.md). -/
def State.applyPreset (e : HotkeyEntry) (trigger : ModSet) (s : State) : State :=
  let pre := s.presets[e.arg8]
  let s1 := s.setShown pre.windows
  match pre.focus.filter fun t => !s.isAbsent t && !s.lockRefuses e with
  | none => if s1.shownSet = s.shownSet then s1 else s1.reevaluate .window trigger
  | some t =>
    if t = s1.focus.target && (s1.firstRegion t).isNone then s1.reevaluate .window trigger
    else s1.directed t .hotkey trigger

/-- The detector in a state with no candidate and no deadline running. -/
def State.setDetector (d : Detector) (s : State) : State := { s with detector := d }

/-- LEADER (R74): the deadline is started for the DESK leader time. -/
def State.openLeader (s : State) : State := s.setDetector ⟨.leader, none, none, some s.desk.leaderTime⟩

/-- An entry fires: its action with the trigger modifiers of a CHORD, or none (R72 to R77). -/
def State.fire (e : HotkeyEntry) (trigger : ModSet) (s : State) : State :=
  match e.action with
  | .focus => s.focusAction e trigger e.arg8
  | .focusNext =>
    match s.nextTarget with
    | some t => s.focusAction e trigger t
    | none => s
  | .focusBack =>
    match s.focus.history.head? with
    | some t => s.focusAction e trigger t
    | none => s
  | .focusLock => { s with focus := { s.focus with lock := !s.focus.lock } }
  | .glideToggle => { s with desk := { s.desk with glideEnable := !s.desk.glideEnable } }
  | .windowToggle => s.windowToggle e.arg8 trigger
  | .preset => s.applyPreset e trigger
  | .wake => s.wakeRequest e.arg8
  | .leader => s.openLeader

/-! ## The detector (R64 to R71) -/

/-- The press handed on to the focus unit from a following port: routed to the focus target (R44). -/
def State.handPress (p : Port) (i : KeyItem) (s : State) : State := s.keyPress p s.focus.target i

/-- The press consumed into its port's suppressed set (R64). -/
def State.consumePress (p : Port) (i : KeyItem) (s : State) : State := s.modPort p (ConsolePort.suppress i.item)

/-- A trigger press settled by PASS after the action (R67, R71). -/
def State.settlePress (e : HotkeyEntry) (p : Port) (i : KeyItem) (s : State) : State :=
  if e.pass then s.handPress p i else s.consumePress p i

/-- The CHORD entry a press fires in IDLE (R65, R66). -/
def State.chordFor (s : State) (i : KeyItem) (held : ModSet) : Option HotkeyEntry :=
  match i with
  | .key _ => s.findHotkey .chord i fun e => e.modsMatch held
  | .mod _ => none

/-- A press examined in IDLE (R65, R67); the flag says that a chord fired. -/
def State.pressIdle (p : Port) (i : KeyItem) (held : ModSet) (s : State) : State × Bool :=
  match s.chordFor i held with
  | some e => (((s.setDetector Detector.initial).fire e e.triggerMods).settlePress e p i, true)
  | none =>
    let tap := (s.findHotkey .tap2 i fun _ => true).isSome
    ((s.setDetector ⟨.idle, if tap then some (i, p) else none, none, none⟩).handPress p i, false)

/-- A press taken in TAP_WAIT (R69). -/
def State.pressTapWait (p : Port) (i : KeyItem) (held : ModSet) (s : State) : State × Bool :=
  let s1 := s.setDetector Detector.initial
  match (if s.detector.candidate = some (i, p) then s.findHotkey .tap2 i fun _ => true else none) with
  | some e => ((s1.fire e 0).handPress p i, false)
  | none => s1.pressIdle p i held

/-- A press taken in LEADER (R71). -/
def State.pressLeader (p : Port) (i : KeyItem) (held : ModSet) (s : State) : State × Bool :=
  let s1 := s.setDetector Detector.initial
  match s.findHotkey .follow i fun _ => true with
  | some e => ((s1.fire e 0).settlePress e p i, false)
  | none => s1.pressIdle p i held

/-- The detector takes a press from a following port; `held` is the press's chord modifier set (R64). -/
def State.detectPress (p : Port) (i : KeyItem) (held : ModSet) (s : State) : State × Bool :=
  match s.detector.state with
  | .idle => s.pressIdle p i held
  | .tapWait => s.pressTapWait p i held
  | .leader => s.pressLeader p i held

/-- The detector takes a release from a following port and hands it on; the release of a held candidate on its own port
starts the tap deadline (R68). -/
def State.detectRelease (p : Port) (i : KeyItem) (s : State) : State :=
  let s1 :=
    if s.detector.state = .idle ∧ s.detector.candidate = some (i, p) then
      s.setDetector ⟨.tapWait, some (i, p), some s.desk.tapWindow, none⟩
    else s
  s1.keyRelease p i

end Sys2Proof.Machine
end

