-- ==== Sys2Proof/Machine/Operands.lean ====
section
/-! DEFINITION. Every operand form of the commands: the ranges of frame values, the frame envelope and its check (R179), the
payload layouts of the inbound frames (R180, spec 10.3), and the classification of a control frame by its command byte and
argument length (R163, R181, spec 10.4). -/

namespace Sys2Proof.Machine

/-! ## Values checked in an inbound frame (R24, R102, R180) -/

/-- A C_KEYS count is 0..12 or ROLLOVER (R24). -/
def keyListOk : KeyList → Bool
  | .rollover => true
  | .keys l => l.length ≤ Config.keyCap

/-- A P_CREDIT n is 1..32 (R102). -/
def creditOk (n : Byte) : Bool := 1 ≤ n.toNat && n.toNat ≤ Config.creditMax

/-- An LED set has no member outside the five LEDs (R102, R180). -/
def ledByteOk (leds : Byte) : Bool := leds.toNat < 32

/-- A P_CONTROL payload is at most 62 bytes, tag and command among them (R179, spec 10.3). -/
def controlArgsOk (args : List Byte) : Bool := args.length ≤ Config.payloadMax - 2

/-- Width and height both lie in the 1..32767 of a measured geometry (R123). -/
def geometryOk (g : Geometry) : Bool := 1 ≤ g.w && g.w ≤ 32767 && 1 ≤ g.h && g.h ≤ 32767

/-- The codes of the console classes (R180). -/
def classOfByte (b : Byte) : Option PortClass :=
  if b = 0 then some .keyboard else if b = 1 then some .pointer else if b = 2 then some .keypad else none

/-- The code of a console class (R180). -/
def classByte : PortClass → Byte
  | .keyboard => 0
  | .pointer => 1
  | .keypad => 2

/-- The codes of the presentation modes (R180). -/
def modeOfByte (b : Byte) : Option Mode :=
  if b = 0 then some .boot else if b = 1 then some .report else if b = 2 then some .absolute else none

/-- The code of a presentation mode (R180). -/
def modeByte : Mode → Byte
  | .boot => 0
  | .report => 1
  | .absolute => 2

/-- The codes of a P_POWER (R180). -/
def powerOfByte (b : Byte) : Option PowerValue := if b = 0 then some .active else if b = 1 then some .suspended else none

/-- The code of a P_POWER value (R180). -/
def powerByte : PowerValue → Byte
  | .active => 0
  | .suspended => 1

/-! ## The envelope (R179) -/

/-- The check: the sum modulo 65536 of the kind byte, the length byte and every payload byte (R179). -/
def frameCheck (kind : Byte) (payload : List Byte) : Nat :=
  (kind.toNat + payload.length + (payload.map BitVec.toNat).sum) % 65536

/-- A whole frame: kind, length, payload and the check, high byte first (R179). -/
def sealFrame (kind : Byte) (payload : List Byte) : List Byte :=
  kind :: BitVec.ofNat 8 payload.length :: (payload ++ beBytes 2 (frameCheck kind payload))

/-- Kind and payload of a frame that passes the check of R179: at least four bytes, a length byte of at most 62 that is the
number of bytes between it and the check, and equal sums. -/
def openFrame : List Byte → Option (Byte × List Byte)
  | kind :: len :: rest =>
    let payload := rest.take (rest.length - 2)
    if 2 ≤ rest.length ∧ len.toNat ≤ Config.payloadMax ∧ len.toNat = payload.length ∧
        beValue (rest.drop (rest.length - 2)) = frameCheck kind payload then some (kind, payload) else none
  | _ => none

/-! ## Inbound frames (R180, spec 10.3) -/

/-- A 16-bit field sent high byte first (R180). -/
def word16 (hi lo : Byte) : BitVec 16 := hi ++ lo

/-- The high and low bytes of a 16-bit field (R180). -/
def bytes16 (v : BitVec 16) : List Byte := [v.extractLsb' 8 8, v.extractLsb' 0 8]

/-- A console-lane payload of a kind byte, as the command it stands for; `none` where steps 2 and 3 of R24 discard it. -/
def consolePayload (p : Port) (kind : Byte) (payload : List Byte) : Option Instr :=
  if kind = 0x01 then
    match payload with
    | [c] => (classOfByte c).map (Instr.cAttach p)
    | _ => none
  else if kind = 0x02 then
    match payload with
    | mods :: count :: list =>
      if count = 255 then (if list.isEmpty then some (.cKeys p mods .rollover) else none)
      else if count.toNat ≤ Config.keyCap ∧ list.length = count.toNat then some (.cKeys p mods (.keys list)) else none
    | _ => none
  else if kind = 0x03 then
    match payload with
    | [x1, x0, y1, y0, wheel, buttons] => some (.cMotion p (word16 x1 x0) (word16 y1 y0) wheel buttons)
    | _ => none
  else if kind = 0x04 then
    (if payload.isEmpty then some (.cDetach p) else none)
  else none

/-- A target-lane payload of a kind byte, as the command it stands for; `none` where steps 2 and 3 of R102 discard it. -/
def targetPayload (t : Target) (kind : Byte) (payload : List Byte) : Option Instr :=
  if kind = 0x11 then
    match payload with
    | [m] => (modeOfByte m).map (Instr.pAttach t)
    | _ => none
  else if kind = 0x12 then
    match payload with
    | [m] => (modeOfByte m).map (Instr.pMode t)
    | _ => none
  else if kind = 0x13 then
    match payload with
    | [n] => if creditOk n then some (.pCredit t n) else none
    | _ => none
  else if kind = 0x14 then
    match payload with
    | [v] => (powerOfByte v).map (Instr.pPower t)
    | _ => none
  else if kind = 0x15 then
    match payload with
    | [l] => if ledByteOk l then some (.pLeds t l) else none
    | _ => none
  else if kind = 0x16 then
    match payload with
    | tag :: command :: args => some (.pControl t tag command args)
    | _ => none
  else if kind = 0x17 then
    (if payload.isEmpty then some (.pDetach t) else none)
  else none

/-- The command a frame on console lane p stands for: `none` when a check of R24 (steps 1 to 3) discards it. -/
def consoleCommand (p : Port) (bytes : List Byte) : Option Instr :=
  match openFrame bytes with
  | some (kind, payload) => consolePayload p kind payload
  | none => none

/-- The command a frame on target lane t stands for: `none` when a check of R102 (steps 1 to 3) discards it. -/
def targetCommand (t : Target) (bytes : List Byte) : Option Instr :=
  match openFrame bytes with
  | some (kind, payload) => targetPayload t kind payload
  | none => none

/-- What arrives on console lane p, bytes to command: a frame row, or BAD_CONSOLE_FRAME (R24). -/
def consoleLane (p : Port) (bytes : List Byte) : Instr := (consoleCommand p bytes).getD (.badConsoleFrame p bytes)

/-- What arrives on target lane t, bytes to command: a frame row, or BAD_TARGET_FRAME (R102). -/
def targetLane (t : Target) (bytes : List Byte) : Instr := (targetCommand t bytes).getD (.badTargetFrame t bytes)

/-- The lane frame of an inbound frame row (spec 10.3); `none` for a row that is no lane frame. -/
def laneFrame : Instr → Option (List Byte)
  | .cAttach _ c => some (sealFrame 0x01 [classByte c])
  | .cKeys _ mods .rollover => some (sealFrame 0x02 [mods, 255])
  | .cKeys _ mods (.keys l) => some (sealFrame 0x02 (mods :: BitVec.ofNat 8 l.length :: l))
  | .cMotion _ dx dy wheel buttons => some (sealFrame 0x03 (bytes16 dx ++ bytes16 dy ++ [wheel, buttons]))
  | .cDetach _ => some (sealFrame 0x04 [])
  | .pAttach _ m => some (sealFrame 0x11 [modeByte m])
  | .pMode _ m => some (sealFrame 0x12 [modeByte m])
  | .pCredit _ n => some (sealFrame 0x13 [n])
  | .pPower _ v => some (sealFrame 0x14 [powerByte v])
  | .pLeds _ l => some (sealFrame 0x15 [l])
  | .pControl _ tag command args => some (sealFrame 0x16 (tag :: command :: args))
  | .pDetach _ => some (sealFrame 0x17 [])
  | .badConsoleFrame _ bytes => some bytes
  | .badTargetFrame _ bytes => some bytes
  | .powerOn _ _ | .hardReset | .resetNRelease | .consoleLaneLoss _ | .mergeTakeEntry | .tapDeadlineExpiry
  | .leaderDeadlineExpiry | .targetLaneLoss _ | .sendReport _ | .stallTimerExpiry _ | .wakeTimerExpiry _
  | .idleTimerExpiry | .signalArrival _ | .signalLoss _ | .headFrameEnd _ _ _ | .displayFrameStart _ | .tableRead
  | .tableWrite | .layoutHold | .layoutRelease | .layoutAbandon | .focusSet | .wake | .windowShow | .statusRead
  | .noticeRead | .noticeClear | .noticeSubscribe | .deskReset | .badCommand => none

/-! ## Control frames (R163, R181, spec 10.4) -/

/-- The thirteen commands of spec 9.4. -/
inductive ControlCommand where
  | tableRead | tableWrite | layoutHold | layoutRelease | layoutAbandon | focusSet | wake | windowShow | statusRead
  | noticeRead | noticeClear | noticeSubscribe | deskReset
  deriving DecidableEq, Repr

/-- The record length of each table, by table number (spec 10.5). -/
def recordLength (table : Nat) : Nat :=
  match table with
  | 0 => 27
  | 1 => 8
  | 2 => 9
  | 3 => 10
  | 4 => 8
  | 5 => 5
  | 6 => 10
  | 7 => 2
  | 8 => 16
  | _ => 0

/-- The argument length a TABLE_WRITE must have (R181). -/
def tableWriteLengthOk (args : List Byte) : Bool :=
  match args with
  | table :: _ :: record => if table.toNat ≤ 8 then record.length = recordLength table.toNat else true
  | _ => false

/-- The command of a control frame by its command byte (spec 10.4). -/
def commandOfByte (b : Byte) : Option ControlCommand :=
  match b.toNat with
  | 0 => some .tableRead
  | 1 => some .tableWrite
  | 2 => some .layoutHold
  | 3 => some .layoutRelease
  | 4 => some .layoutAbandon
  | 5 => some .focusSet
  | 6 => some .wake
  | 7 => some .windowShow
  | 8 => some .statusRead
  | 9 => some .noticeRead
  | 10 => some .noticeClear
  | 11 => some .noticeSubscribe
  | 12 => some .deskReset
  | _ => none

/-- The argument length of a command (spec 10.4; R181 for TABLE_WRITE). -/
def argsLengthOk (c : ControlCommand) (args : List Byte) : Bool :=
  match c with
  | .tableRead | .windowShow => args.length = 2
  | .tableWrite => tableWriteLengthOk args
  | .focusSet | .wake | .statusRead | .noticeSubscribe => args.length = 1
  | .noticeClear => args.length = 3
  | .layoutHold | .layoutRelease | .layoutAbandon | .noticeRead | .deskReset => args.length = 0

/-- Step 2 of R163: the command a control frame names with arguments of the right length; `none` is answered
BAD_COMMAND. -/
def controlCommand (command : Byte) (args : List Byte) : Option ControlCommand :=
  match commandOfByte command with
  | some c => if argsLengthOk c args then some c else none
  | none => none

/-- The k-th argument byte counted from 1 (R181). -/
def arg (args : List Byte) (k : Nat) : Nat := (args.getD (k - 1) 0).toNat

end Sys2Proof.Machine
end

