-- ==== Sys2Proof/Machine/Console.lean ====
section
/-! DEFINITION. Console ports and the merge engine (spec 02), and the meanings of the console-lane rows, MERGE_TAKE_ENTRY and the
detector's two deadlines. -/

namespace Sys2Proof.Machine

/-! ## Arrivals (R24 to R29, R157) -/

/-- Console activity (R157): the idle timer is restarted, and an IDLE desk returns to AWAKE. -/
def State.activity (s : State) : State :=
  { s with deskState := .awake, idleTimer := if s.desk.deskIdle = 0 then s.idleTimer else some s.desk.deskIdle }

/-- The arriving frame is marked as swallowed: it finds the desk IDLE with swallow-wake on (R35, R157). -/
def State.swallowMark (s : State) : Bool := s.deskState = .idle && s.desk.swallowWake

/-- A C_KEYS entry (R29). -/
def FifoEntry.isKeys : FifoEntry → Bool
  | .keys _ _ _ => true
  | .motion _ _ _ _ _ => false
  | .releaseAll => false

/-- A C_MOTION entry (R28). -/
def FifoEntry.isMotion : FifoEntry → Bool
  | .keys _ _ _ => false
  | .motion _ _ _ _ _ => true
  | .releaseAll => false

/-- The swallowed mark (R35). -/
def FifoEntry.swallowed : FifoEntry → Bool
  | .keys _ _ m => m
  | .motion _ _ _ _ m => m
  | .releaseAll => false

/-- An arriving C_MOTION merges into an entry with equal buttons, saturating (R28); the entry keeps or takes the mark (R35). -/
def mergeMotion (dx dy wheel : Int) (buttons : ButtonSet) (mark : Bool) : FifoEntry → Option FifoEntry
  | .motion dx' dy' wheel' buttons' mark' =>
    if buttons' = buttons then
      some (.motion (clamp (-32768) 32767 (dx' + dx)) (clamp (-32768) 32767 (dy' + dy)) (clamp (-128) 127 (wheel' + wheel))
        buttons' (mark' || mark))
    else none
  | .keys _ _ _ => none
  | .releaseAll => none

/-- The FIFO after an arriving C_KEYS; `none` where it is discarded at a full FIFO (R27, R29). -/
def pushKeys (mods : ModSet) (list : List Key) (mark : Bool) (fifo : List FifoEntry) : Option (List FifoEntry) :=
  if fifo.length < Config.fifoDepth then some (fifo ++ [.keys mods list mark])
  else if fifo.any FifoEntry.isKeys then
    some (updNewest FifoEntry.isKeys (fun e => .keys mods list (e.swallowed || mark)) fifo)
  else none

/-- The FIFO after an arriving C_MOTION; `none` where it is discarded at a full FIFO (R27, R28). -/
def pushMotion (dx dy wheel : Int) (buttons : ButtonSet) (mark : Bool) (fifo : List FifoEntry) : Option (List FifoEntry) :=
  if fifo.length < Config.fifoDepth then some (fifo ++ [.motion dx dy wheel buttons mark])
  else
    match (newest FifoEntry.isMotion fifo).bind (mergeMotion dx dy wheel buttons mark) with
    | some m => some (updNewest FifoEntry.isMotion (fun _ => m) fifo)
    | none => none

/-- The FIFO of p becomes the given one, or the discarded arrival raises CONSOLE_OVERRUN (R28, R29). -/
def State.storeFifo (p : Port) (fifo : Option (List FifoEntry)) (s : State) : State :=
  match fifo with
  | some l => s.modPort p fun port => { port with fifo := l }
  | none => s.raise .consoleOverrun (portSubject p)

/-- A frame that fails steps 1 to 3 of R24 is discarded and raises LANE_ERROR for the port. -/
def State.consoleLaneError (p : Port) (s : State) : State := s.raise .laneError (portSubject p)

/-- A C_KEYS that passed its checks arrives on an ATTACHED port (R27, R29). -/
def State.arriveKeys (p : Port) (mods : ModSet) (list : KeyList) (s : State) : State :=
  match list with
  | .rollover => s.activity
  | .keys l => s.activity.storeFifo p (pushKeys mods l s.swallowMark s.ports[p].fifo)

/-- A C_MOTION that passed its checks arrives on an ATTACHED port (R27, R28); bits 5–7 of the buttons byte are ignored (R180). -/
def State.arriveMotion (p : Port) (dx dy : BitVec 16) (wheel buttons : Byte) (s : State) : State :=
  s.activity.storeFifo p
    (pushMotion dx.toInt dy.toInt wheel.toInt (buttons.setWidth 5) s.swallowMark s.ports[p].fifo)

/-- One release-all entry replaces the FIFO (R25, R26). -/
def ConsolePort.flush (port : ConsolePort) : ConsolePort := { port with fifo := [.releaseAll] }

/-- A C_ATTACH taken (R25), with the C_LEDS of a KEYBOARD port (R38). -/
def State.attachConsole (p : Port) (c : PortClass) (s : State) : State :=
  let s1 := s.modPort p fun port =>
    { (if port.attached then port.flush else port) with attached := true, cls := some c }
  s1.sendLeds fun q => q = p

/-- An ATTACHED console port is detached (R26); nothing changes on an UNATTACHED one. -/
def State.detachConsole (p : Port) (s : State) : State :=
  if s.ports[p].attached then s.modPort p fun port => { port.flush with attached := false } else s

/-! ## The merge engine (R30 to R35) -/

/-- A key or modifier release handed on (R32). -/
def State.handRelease (p : Port) (s : State) (i : KeyItem) : State :=
  if (s.pin p).isNone then s.detectRelease p i else s.keyRelease p i

/-- A modifier's press. -/
def KeyItem.isMod : KeyItem → Bool
  | .mod _ => true
  | .key _ => false

/-- A key or modifier press handed on (R32). The flag of the pair says that a chord has fired in this C_KEYS entry, whose later
modifier presses the detector consumes unexamined (R67). -/
def State.handOnPress (p : Port) (mods : ModSet) (a : State × Bool) (i : KeyItem) : State × Bool :=
  match a.1.pin p with
  | some t => (a.1.keyPress p t i, a.2)
  | none =>
    if a.2 && i.isMod then (a.1.consumePress p i, a.2)
    else
      let r := a.1.detectPress p i (a.1.chordMods p mods)
      (r.1, a.2 || r.2)

/-- The cleaned key list of a C_KEYS entry (R31). -/
def cleanKeys (list : List Key) : List Key := firstAppearances [] (list.filter fun k => k != 0 && k != 255)

/-- The releases of a comparison with the snapshot, modifiers first (R31). -/
def ConsolePort.releasesFor (mods : ModSet) (clean : List Key) (port : ConsolePort) : List KeyItem :=
  (members (minus port.snapMods mods)).map KeyItem.mod ++ (port.snapKeys.filter fun k => !clean.contains k).map KeyItem.key

/-- The keys a comparison with the snapshot finds pressed (R31). -/
def ConsolePort.pressedKeys (clean : List Key) (port : ConsolePort) : List Key :=
  clean.filter fun k => !port.snapKeys.contains k

/-- A C_KEYS entry processed against the port's snapshot (R31), its presses suppressed when it is swallowed (R35). -/
def State.takeKeys (p : Port) (mods : ModSet) (list : List Key) (swallowed : Bool) (s : State) : State :=
  let clean := cleanKeys list
  let port := s.ports[p]
  let keys := port.pressedKeys clean
  let mods' := minus mods port.snapMods
  let s1 := (port.releasesFor mods clean).foldl (State.handRelease p) s
  let s2 :=
    if swallowed then s1.modPort p (ConsolePort.suppressAll keys mods' 0)
    else ((keys.map KeyItem.key ++ (members mods').map KeyItem.mod).foldl (State.handOnPress p mods) (s1, false)).1
  s2.modPort p fun q => { q with snapMods := mods, snapKeys := clean, inChord := true }

/-- The held set becomes the entry's (R33). -/
def State.setHeld (p : Port) (buttons : ButtonSet) (s : State) : State :=
  s.modPort p fun q => { q with held := buttons }

/-- A pointer event of releases only is handed on when there are any (R34, R35). -/
def State.handButtonReleases (p : Port) (buttons releases : ButtonSet) (s : State) : State :=
  if releases = 0 then s else s.pointerEvent ⟨p, 0, 0, 0, buttons, releases, 0⟩

/-- A C_MOTION entry processed against the port's held buttons (R33); a swallowed one drops its motion and wheel and suppresses
its presses (R35). -/
def State.takeMotion (p : Port) (dx dy wheel : Int) (buttons : ButtonSet) (swallowed : Bool) (s : State) : State :=
  let held := s.ports[p].held
  let releases := minus held buttons
  let presses := minus buttons held
  let s1 :=
    if swallowed then (s.modPort p (ConsolePort.suppressAll [] 0 presses)).handButtonReleases p buttons releases
    else s.pointerEvent ⟨p, dx, dy, wheel, buttons, releases, presses⟩
  s1.setHeld p buttons

/-- A release-all entry (R34). -/
def State.takeReleaseAll (p : Port) (s : State) : State :=
  let port := s.ports[p]
  let s1 := ((members port.snapMods).map KeyItem.mod ++ port.snapKeys.map KeyItem.key).foldl (State.handRelease p) s
  (s1.handButtonReleases p 0 port.held).modPort p fun q =>
    { q with snapMods := 0, snapKeys := [], held := 0, supKeys := [], supMods := 0, supButtons := 0, inChord := true }

/-- The port the merge engine serves next (R30). -/
def State.nextPort (s : State) : Option Port := (rotation (succWrap s.mergeLast)).find? fun p => !s.ports[p].fifo.isEmpty

/-- One entry of port p processed (R31 to R35). -/
def State.takeEntry (p : Port) (e : FifoEntry) (s : State) : State :=
  match e with
  | .keys mods list m => s.takeKeys p mods list m
  | .motion dx dy wheel buttons m => s.takeMotion p dx dy wheel buttons m
  | .releaseAll => s.takeReleaseAll p

/-- The merge engine takes the oldest entry of the next port in rotation (R30); with every FIFO empty nothing is taken. -/
def State.mergeTake (s : State) : State :=
  match s.nextPort with
  | none => s
  | some p =>
    match s.ports[p].fifo with
    | [] => s
    | e :: rest => ({ s with mergeLast := p }.modPort p fun q => { q with fifo := rest }).takeEntry p e

/-! ## Meanings -/

/-- C_ATTACH (R24, R25). -/
def execCAttach (p : Port) (cls : PortClass) (s : State) : Host.Outcome State Fault Refusal :=
  running s (State.attachConsole p cls)

/-- C_KEYS (R24, R27, R29): more than twelve keys is a count out of range (R24 step 3); an UNATTACHED port discards it (step 4). -/
def execCKeys (p : Port) (mods : ModSet) (list : KeyList) (s : State) : Host.Outcome State Fault Refusal :=
  running s fun s =>
    if !keyListOk list then s.consoleLaneError p else if s.ports[p].attached then s.arriveKeys p mods list else s

/-- C_MOTION (R24, R27, R28). -/
def execCMotion (p : Port) (dx dy : BitVec 16) (wheel buttons : Byte) (s : State) : Host.Outcome State Fault Refusal :=
  running s fun s => if s.ports[p].attached then s.arriveMotion p dx dy wheel buttons else s

/-- C_DETACH (R24, R26). -/
def execCDetach (p : Port) (s : State) : Host.Outcome State Fault Refusal := running s (State.detachConsole p)

/-- CONSOLE_LANE_LOSS (R26). -/
def execConsoleLaneLoss (p : Port) (s : State) : Host.Outcome State Fault Refusal := running s (State.detachConsole p)

/-- BAD_CONSOLE_FRAME (R24, R179): bytes that fail a check raise LANE_ERROR. Bytes that pass them all are no such frame, and then
nothing happens (notes/assumptions/19.md). -/
def execBadConsoleFrame (p : Port) (bytes : List Byte) (s : State) : Host.Outcome State Fault Refusal :=
  running s fun s => if (consoleCommand p bytes).isNone then s.consoleLaneError p else s

/-- MERGE_TAKE_ENTRY (R30). -/
def execMergeTakeEntry (s : State) : Host.Outcome State Fault Refusal := running s State.mergeTake

/-- TAP_DEADLINE_EXPIRY (R70). -/
def execTapDeadlineExpiry (s : State) : Host.Outcome State Fault Refusal :=
  running s fun s => if s.detector.state = .tapWait then s.setDetector Detector.initial else s

/-- LEADER_DEADLINE_EXPIRY (R71). -/
def execLeaderDeadlineExpiry (s : State) : Host.Outcome State Fault Refusal :=
  running s fun s => if s.detector.state = .leader then s.setDetector Detector.initial else s

end Sys2Proof.Machine
end

