-- ==== Sys2Proof/Machine/Records.lean ====
section
/-! DEFINITION. Table records (spec 10.5): their fields, widths, classes and ranges (R12, R36, R63, R76, R166, R167, R169), the
entry a sender sees (R13), the write checks and the write's effects. -/

namespace Sys2Proof.Machine

/-! ## Fields -/

/-- Field classes (R167). -/
inductive FieldClass where
  | layout | policy | live | readOnly
  deriving DecidableEq, Repr

/-- One field of a record: its width in bytes, its class and its range. -/
structure FieldSpec where
  width : Nat
  cls   : FieldClass
  ok    : Nat → Bool

/-- A numeric range. -/
def between (a b v : Nat) : Bool := a ≤ v && v ≤ b

/-- A number below n, or 255 for NONE, GAP or FOLLOW (R180). -/
def optBelow (n v : Nat) : Bool := v < n || v = 255

/-- The codes of a two-byte hotkey trigger (R180): 0 and a key number 1..254, or 1 and a modifier 0..7. -/
def triggerOk (v : Nat) : Bool := between 1 254 v || between 256 263 v

/-- Fields of a TIERS record (R12, spec 10.5). -/
def tierSpecs : List FieldSpec :=
  ⟨1, .layout, between 0 1⟩ :: ⟨2, .layout, between 1 16384⟩ ::
    (List.range 6).flatMap fun _ => [⟨1, .layout, between 0 1⟩, ⟨2, .layout, between 1 32768⟩, ⟨1, .layout, optBelow 6⟩]

/-- Fields of a DISPLAYS record. -/
def displaySpecs : List FieldSpec :=
  [⟨1, .layout, between 0 1⟩, ⟨2, .layout, between 64 8192⟩, ⟨2, .layout, between 64 8192⟩, ⟨1, .layout, optBelow 12⟩,
    ⟨1, .layout, between 0 2⟩, ⟨1, .live, between 0 255⟩]

/-- Fields of a WINDOWS record. -/
def windowSpecs : List FieldSpec :=
  [⟨1, .layout, between 0 1⟩, ⟨1, .layout, between 0 5⟩, ⟨1, .layout, between 0 11⟩, ⟨2, .layout, between 0 8191⟩,
    ⟨2, .layout, between 0 8191⟩, ⟨1, .layout, between 1 3⟩, ⟨1, .layout, between 0 1⟩]

/-- Fields of a HEADS record. -/
def headSpecs : List FieldSpec :=
  [⟨1, .layout, optBelow 8⟩, ⟨2, .layout, between 0 32767⟩, ⟨2, .layout, between 0 32767⟩, ⟨1, .readOnly, between 0 2⟩,
    ⟨2, .readOnly, between 0 32767⟩, ⟨2, .readOnly, between 0 32767⟩]

/-- Fields of a TARGETS record. -/
def targetSpecs : List FieldSpec :=
  [⟨2, .layout, between 1 32767⟩, ⟨2, .layout, between 1 32767⟩, ⟨1, .policy, between 0 2⟩, ⟨1, .policy, between 0 1⟩,
    ⟨1, .policy, between 0 1⟩, ⟨1, .policy, between 0 1⟩]

/-- Fields of a CONSOLES record. -/
def consoleSpecs : List FieldSpec :=
  [⟨1, .policy, optBelow 8⟩, ⟨1, .live, between 1 64⟩, ⟨1, .live, between 1 64⟩, ⟨2, .live, between 0 1023⟩]

/-- Fields of a HOTKEYS record. -/
def hotkeySpecs : List FieldSpec :=
  [⟨1, .policy, between 0 1⟩, ⟨1, .policy, between 0 2⟩, ⟨1, .policy, between 0 255⟩, ⟨1, .policy, between 0 1⟩,
    ⟨2, .policy, triggerOk⟩, ⟨1, .policy, between 0 8⟩, ⟨1, .policy, between 0 15⟩, ⟨1, .policy, between 0 1⟩,
    ⟨1, .policy, between 0 1⟩]

/-- Fields of a PRESETS record. -/
def presetSpecs : List FieldSpec := [⟨1, .live, between 0 255⟩, ⟨1, .live, optBelow 8⟩]

/-- Fields of the DESK record. -/
def deskSpecs : List FieldSpec :=
  [⟨1, .live, between 0 1⟩, ⟨2, .live, between 0 1023⟩, ⟨2, .live, between 100 1000⟩, ⟨2, .live, between 500 5000⟩,
    ⟨1, .live, between 1 60⟩, ⟨2, .live, between 50 2000⟩, ⟨1, .live, between 0 240⟩, ⟨1, .live, between 0 1⟩,
    ⟨1, .live, between 4 31⟩, ⟨2, .live, between 1 1000⟩, ⟨1, .live, between 1 255⟩]

/-- The field values of a record's bytes. -/
def splitFields : List FieldSpec → List Byte → List Nat
  | [], _ => []
  | f :: fs, bytes => beValue (bytes.take f.width) :: splitFields fs (bytes.drop f.width)

/-- The bytes of a record's field values. -/
def joinFields : List FieldSpec → List Nat → List Byte
  | f :: fs, v :: vs => beBytes f.width v ++ joinFields fs vs
  | _, _ => []

/-! ## Records and entries -/

/-- The n-th field value counted from 0. -/
def fieldAt (l : List Nat) (n : Nat) : Nat := l.getD n 0

/-- A flag field. -/
def flagAt (l : List Nat) (n : Nat) : Bool := fieldAt l n = 1

/-- TIERS fields of an entry. -/
def TierRec.fields (r : TierRec) : List Nat :=
  flagNum r.used :: r.endY :: r.slots.toList.flatMap fun q => [flagNum q.used, q.endX, optNum q.display]

/-- The TIERS entry of field values. -/
def TierRec.ofFields (l : List Nat) : TierRec :=
  ⟨flagAt l 0, fieldAt l 1,
    Vector.ofFn fun s => ⟨flagAt l (2 + 3 * s.val), fieldAt l (3 + 3 * s.val), numOpt 6 (fieldAt l (4 + 3 * s.val))⟩⟩

/-- DISPLAYS fields of an entry and its band budget. -/
def DisplayRec.fields (r : DisplayRec) (budget : Nat) : List Nat :=
  [flagNum r.enabled, r.width, r.height, optNum r.base, r.shift, budget]

/-- The layout part of a DISPLAYS entry of field values. -/
def DisplayRec.ofFields (l : List Nat) : DisplayRec := ⟨flagAt l 0, fieldAt l 1, fieldAt l 2, numOpt 12 (fieldAt l 3), fieldAt l 4⟩

/-- WINDOWS fields of an entry. -/
def WindowRec.fields (r : WindowRec) : List Nat :=
  [flagNum r.enabled, r.display.val, r.source.val, r.x, r.y, r.shift, flagNum r.interactive]

/-- The WINDOWS entry of field values. -/
def WindowRec.ofFields (l : List Nat) : WindowRec :=
  ⟨flagAt l 0, numFin 6 (by decide) (fieldAt l 1), numFin 12 (by decide) (fieldAt l 2), fieldAt l 3, fieldAt l 4, fieldAt l 5,
    flagAt l 6⟩

/-- HEADS fields of an entry and its read-only state; a head without measured geometry returns 0 × 0 (R129). -/
def HeadRec.fields (r : HeadRec) (h : HeadState) : List Nat :=
  let g := h.measured.getD ⟨0, 0⟩
  [optNum r.owner, r.originX, r.originY, h.lock.code, g.w, g.h]

/-- The layout part of a HEADS entry of field values. -/
def HeadRec.ofFields (l : List Nat) : HeadRec := ⟨numOpt 8 (fieldAt l 0), fieldAt l 1, fieldAt l 2⟩

/-- Wake policy codes (R180). -/
def WakePolicy.code : WakePolicy → Nat
  | .onFocus => 0
  | .onKey => 1
  | .never => 2

/-- The wake policy of a code (R180). -/
def wakePolicyOf (v : Nat) : WakePolicy := if v = 0 then .onFocus else if v = 1 then .onKey else .never

/-- TARGETS fields of an entry. -/
def targetFields (size : DeskSize) (p : TargetPolicy) : List Nat :=
  [size.dw, size.dh, p.wakePolicy.code, p.wakeRetry, flagNum p.glideIn, flagNum p.permit]

/-- The layout part of a TARGETS entry of field values. -/
def DeskSize.ofFields (l : List Nat) : DeskSize := ⟨fieldAt l 0, fieldAt l 1⟩

/-- The policy part of a TARGETS entry of field values. -/
def TargetPolicy.ofFields (l : List Nat) : TargetPolicy := ⟨wakePolicyOf (fieldAt l 2), fieldAt l 3, flagAt l 4, flagAt l 5⟩

/-- CONSOLES fields of an entry. -/
def ConsoleEntry.fields (e : ConsoleEntry) : List Nat := [optNum e.pin, e.gainSlow, e.gainFast, e.threshold]

/-- The CONSOLES entry of field values. -/
def ConsoleEntry.ofFields (l : List Nat) : ConsoleEntry := ⟨numOpt 8 (fieldAt l 0), fieldAt l 1, fieldAt l 2, fieldAt l 3⟩

/-- Hotkey kind codes (R180). -/
def HotkeyKind.code : HotkeyKind → Nat
  | .chord => 0
  | .tap2 => 1
  | .follow => 2

/-- The hotkey kind of a code (R180). -/
def hotkeyKindOf (v : Nat) : HotkeyKind := if v = 0 then .chord else if v = 1 then .tap2 else .follow

/-- The hotkey actions in the order of their codes (R180). -/
def hotkeyActions : List HotkeyAction :=
  [.focus, .focusNext, .focusBack, .focusLock, .glideToggle, .windowToggle, .preset, .wake, .leader]

/-- Hotkey action codes (R180). -/
def HotkeyAction.code : HotkeyAction → Nat
  | .focus => 0
  | .focusNext => 1
  | .focusBack => 2
  | .focusLock => 3
  | .glideToggle => 4
  | .windowToggle => 5
  | .preset => 6
  | .wake => 7
  | .leader => 8

/-- The code of a hotkey trigger, two bytes (R180). -/
def KeyItem.code : KeyItem → Nat
  | .key k => k.toNat
  | .mod m => 256 + m.val

/-- The trigger of a code (R180). -/
def triggerOf (v : Nat) : KeyItem := if v < 256 then .key (BitVec.ofNat 8 v) else .mod (numFin 8 (by decide) (v - 256))

/-- HOTKEYS fields of an entry. -/
def HotkeyEntry.fields (e : HotkeyEntry) : List Nat :=
  [flagNum e.enabled, e.kind.code, e.mods.toNat, flagNum e.sideBlind, e.trigger.code, e.action.code, e.argument,
    flagNum e.pass, flagNum e.lockedOk]

/-- The HOTKEYS entry of field values. -/
def HotkeyEntry.ofFields (l : List Nat) : HotkeyEntry :=
  ⟨flagAt l 0, hotkeyKindOf (fieldAt l 1), BitVec.ofNat 8 (fieldAt l 2), flagAt l 3, triggerOf (fieldAt l 4),
    hotkeyActions.getD (fieldAt l 5) .leader, fieldAt l 6, flagAt l 7, flagAt l 8⟩

/-- PRESETS fields of an entry. -/
def PresetEntry.fields (e : PresetEntry) : List Nat := [e.windows.toNat, optNum e.focus]

/-- The PRESETS entry of field values. -/
def PresetEntry.ofFields (l : List Nat) : PresetEntry := ⟨BitVec.ofNat 8 (fieldAt l 0), numOpt 8 (fieldAt l 1)⟩

/-- DESK fields. -/
def DeskEntry.fields (e : DeskEntry) : List Nat :=
  [flagNum e.glideEnable, e.resistance, e.tapWindow, e.leaderTime, e.wakeTimeout, e.stallTime, e.deskIdle,
    flagNum e.swallowWake, e.coalesce, e.holdFrames, e.staleFrames]

/-- The DESK entry of field values. -/
def DeskEntry.ofFields (l : List Nat) : DeskEntry :=
  ⟨flagAt l 0, fieldAt l 1, fieldAt l 2, fieldAt l 3, fieldAt l 4, fieldAt l 5, fieldAt l 6, flagAt l 7, fieldAt l 8,
    fieldAt l 9, fieldAt l 10⟩

/-- An entry of a table (R168). -/
inductive TableEntry where
  | tiers (i : Tier)
  | displays (d : Display)
  | windows (w : Window)
  | heads (h : Head)
  | targets (t : Target)
  | consoles (p : Port)
  | hotkeys (n : Fin 24)
  | presets (n : Fin 8)
  | desk
  deriving DecidableEq, Repr

/-- The entry of a table number and an index; the item byte names TABLE or INDEX (R168, R181). -/
def tableEntry (table index : Nat) : Except Byte TableEntry :=
  let pick (n : Nat) (f : Fin n → TableEntry) : Except Byte TableEntry :=
    if h : index < n then .ok (f ⟨index, h⟩) else .error 0xF1
  match table with
  | 0 => pick 3 .tiers
  | 1 => pick 6 .displays
  | 2 => pick 8 .windows
  | 3 => pick 12 .heads
  | 4 => pick 8 .targets
  | 5 => pick 4 .consoles
  | 6 => pick 24 .hotkeys
  | 7 => pick 8 .presets
  | 8 => pick 1 fun _ => .desk
  | _ => .error 0xF0

/-- The fields of an entry's record. -/
def TableEntry.specs : TableEntry → List FieldSpec
  | .tiers _ => tierSpecs
  | .displays _ => displaySpecs
  | .windows _ => windowSpecs
  | .heads _ => headSpecs
  | .targets _ => targetSpecs
  | .consoles _ => consoleSpecs
  | .hotkeys _ => hotkeySpecs
  | .presets _ => presetSpecs
  | .desk => deskSpecs

/-- The layout a sender sees: the edit layout when it is the hold owner, the active layout otherwise (R12, R13). -/
def State.layoutFor (s : State) (t : Target) : Layout := if s.holdOwner = some t then s.edit else s.active

/-- The field values of an entry as a sender sees it (R13). -/
def State.fieldsOf (s : State) (sender : Target) : TableEntry → List Nat
  | .tiers i => (s.layoutFor sender).tiers[i].fields
  | .displays d => (s.layoutFor sender).displays[d].fields s.budgets[d]
  | .windows w => (s.layoutFor sender).windows[w].fields
  | .heads h => (s.layoutFor sender).heads[h].fields s.heads[h]
  | .targets t => targetFields (s.layoutFor sender).desktops[t] s.policies[t]
  | .consoles p => s.consoles[p].fields
  | .hotkeys n => s.hotkeys[n].fields
  | .presets n => s.presets[n].fields
  | .desk => s.desk.fields

/-! ## Write checks -/

/-- The further checks of R63 and R166, taken after a field's range: false fails with BAD_VALUE naming field n of the record. -/
def State.furtherCheck (s : State) (e : TableEntry) (new : List Nat) (n : Nat) : Bool :=
  match e with
  | .hotkeys _ =>
    if n = 5 then !(fieldAt new 1 = 0 && 256 ≤ fieldAt new 4)
    else if n = 7 then !(8 ≤ fieldAt new 6 && [0, 5, 6, 7].contains (fieldAt new 5))
    else true
  | .targets t => n != 6 || flagAt new 5 || (List.finRange 8).any fun u => u != t && s.policies[u].permit
  | .tiers _ | .displays _ | .windows _ | .heads _ | .consoles _ | .presets _ | .desk => true

/-- The check of one field: range, further check, class (R12, R167). `holder`: the sender is the hold owner. -/
def fieldCheck (lock holder further : Bool) (f : FieldSpec) (new old : Nat) : Option ReplyCode :=
  match f.cls with
  | .readOnly => none
  | .layout => if !f.ok new || !further then some .badValue else if holder || new = old then none else some .needHold
  | .policy => if !f.ok new || !further then some .badValue else if lock && new != old then some .locked else none
  | .live => if !f.ok new || !further then some .badValue else none

/-- The first field refused, with its number from n on (R12). -/
def firstRefusal (lock holder : Bool) (further : Nat → Bool) :
    Nat → List FieldSpec → List Nat → List Nat → Option (ReplyCode × Nat)
  | n, f :: fs, new :: news, old :: olds =>
    match fieldCheck lock holder (further n) f new old with
    | some c => some (c, n)
    | none => firstRefusal lock holder further (n + 1) fs news olds
  | _, _, _, _ => none

/-- What refuses a write of field values to an entry (R12, R36, R63, R76, R166, R169). -/
def State.refusal (s : State) (sender : Target) (e : TableEntry) (new : List Nat) : Option (ReplyCode × Nat) :=
  firstRefusal s.lockStrap (s.holdOwner = some sender) (s.furtherCheck e new) 1 e.specs new (s.fieldsOf sender e)

/-! ## Write effects -/

/-- Layout-class fields are written into the edit layout when the sender is the hold owner, and nowhere otherwise (R12). -/
def State.editLayout (sender : Target) (f : Layout → Layout) (s : State) : State :=
  if s.holdOwner = some sender then { s with edit := f s.edit } else s

/-- The DESK entry takes its values; a changed desk idle restarts or stops the timer of an AWAKE desk (R156, R169). -/
def State.writeDesk (e : DeskEntry) (s : State) : State :=
  { s with
    desk := e
    idleTimer :=
      if e.deskIdle = s.desk.deskIdle ∨ s.deskState = .idle then s.idleTimer
      else if e.deskIdle = 0 then none else some e.deskIdle }

/-- A CONSOLES entry takes its values (R36). A changed pin sends that port C_LEDS (R38), and one that becomes FOLLOW keeps the port's
modifiers out of chord modifier sets until its next processed snapshot (R78). -/
def State.writeConsole (p : Port) (e : ConsoleEntry) (s : State) : State :=
  let s1 := { s with consoles := upd s.consoles p fun _ => e }
  let s2 := if e.pin.isNone then s1.modPort p fun q => { q with inChord := false } else s1
  if e.pin = s.pin p then s1 else s2.sendLeds fun q => q = p

/-- A TARGETS entry takes its values; clearing the hold owner's permit abandons the hold (R15, R166). -/
def State.writeTarget (sender t : Target) (size : DeskSize) (pol : TargetPolicy) (s : State) : State :=
  let s1 := s.editLayout sender fun L => { L with desktops := upd L.desktops t fun _ => size }
  let s2 := { s1 with policies := upd s1.policies t fun _ => pol }
  if pol.permit then s2 else s2.abandonHoldOf t

/-- An accepted write takes effect (R12, R168). -/
def State.writeEntry (sender : Target) (e : TableEntry) (new : List Nat) (s : State) : State :=
  match e with
  | .tiers i => s.editLayout sender fun L => { L with tiers := upd L.tiers i fun _ => TierRec.ofFields new }
  | .displays d =>
    let s1 := s.editLayout sender fun L => { L with displays := upd L.displays d fun _ => DisplayRec.ofFields new }
    { s1 with budgets := upd s1.budgets d fun _ => fieldAt new 5 }
  | .windows w => s.editLayout sender fun L => { L with windows := upd L.windows w fun _ => WindowRec.ofFields new }
  | .heads h => s.editLayout sender fun L => { L with heads := upd L.heads h fun _ => HeadRec.ofFields new }
  | .targets t => s.writeTarget sender t (DeskSize.ofFields new) (TargetPolicy.ofFields new)
  | .consoles p => s.writeConsole p (ConsoleEntry.ofFields new)
  | .hotkeys n => { s with hotkeys := upd s.hotkeys n fun _ => HotkeyEntry.ofFields new }
  | .presets n => { s with presets := upd s.presets n fun _ => PresetEntry.ofFields new }
  | .desk => s.writeDesk (DeskEntry.ofFields new)

end Sys2Proof.Machine
end

