-- ==== Sys2Proof/Machine/Validate.lean ====
section
/-! DEFINITION. The twelve checks of a layout release (R16 to R19). Each gives the index of its first failing item, or none. -/

namespace Sys2Proof.Machine

/-- The validation checks, in the order the release runs them (spec 01, section 1.8). -/
inductive Check where
  | tierOrder | slotOrder | slotWidth | screenHeight | displayReused | displayDisabled | baseUnowned | noScreen
  | windowDisplay | windowSource | windowOrigin | headOrigin
  deriving DecidableEq, Repr

/-- The code of a check, 1..12 (R180). -/
def Check.code : Check → Nat
  | .tierOrder => 1
  | .slotOrder => 2
  | .slotWidth => 3
  | .screenHeight => 4
  | .displayReused => 5
  | .displayDisabled => 6
  | .baseUnowned => 7
  | .noScreen => 8
  | .windowDisplay => 9
  | .windowSource => 10
  | .windowOrigin => 11
  | .headOrigin => 12

/-- A slot's index, tier × 6 + slot (spec 01, section 1.8). -/
def slotIndex (i : Tier) (s : Slot) : Nat := i.val * 6 + s.val

/-- TIER_ORDER fails at tier i (R17). -/
def Layout.tierOrderFails (L : Layout) (i : Tier) : Bool :=
  if i.val = 0 then !L.tiers[i].used
  else L.tiers[i].used && (!L.tiers[i.val - 1].used || L.tiers[i].endY ≤ L.tiers[i.val - 1].endY)

/-- SLOT_ORDER fails at slot s of the used tier i (R17). -/
def Layout.slotOrderFails (L : Layout) (i : Tier) (s : Slot) : Bool :=
  if s.val = 0 then !(L.slot i s).used
  else (L.slot i s).used && (!L.tiers[i].slots[s.val - 1].used || (L.slot i s).endX ≤ L.tiers[i].slots[s.val - 1].endX)

/-- SLOT_WIDTH fails at a placed display (R17): end_x(s) − left(s) differs from its width. -/
def Layout.slotWidthFails (L : Layout) (p : Place) : Bool :=
  ((L.slot p.tier p.slot).endX : Int) - L.left p.tier p.slot != L.displays[p.display].width

/-- SCREEN_HEIGHT fails at a placed display (R17): its height is greater than the tier's. -/
def Layout.screenHeightFails (L : Layout) (p : Place) : Bool :=
  (L.tiers[p.tier].endY : Int) - L.top p.tier < L.displays[p.display].height

/-- The first display of a list of places that an earlier place has named (R18). -/
def firstReused (seen : List Display) : List Place → Option Display
  | [] => none
  | p :: ps => if p.display ∈ seen then some p.display else firstReused (p.display :: seen) ps

/-- BASE_UNOWNED fails at a display (R18). -/
def Layout.baseUnowned (L : Layout) (d : Display) : Bool := (L.displayOwner d).isNone

/-- The enabled windows, in number order (R19). -/
def Layout.enabledWindows (L : Layout) : List Window := (List.finRange 8).filter fun w => L.windows[w].enabled

/-- WINDOW_DISPLAY fails at an enabled window (R19). -/
def Layout.windowDisplayFails (L : Layout) (w : Window) : Bool :=
  !L.displays[L.windows[w].display].enabled ||
    decide (Config.windowsPerDisplay ≤ (L.enabledWindows.filter fun v => v < w && L.windows[v].display = L.windows[w].display).length)

/-- WINDOW_SOURCE fails at an enabled window (R19). -/
def Layout.windowSourceFails (L : Layout) (w : Window) : Bool :=
  (L.windowOwner w).isNone || L.displays[L.windows[w].display].base = some L.windows[w].source

/-- WINDOW_ORIGIN fails at an enabled window (R19). -/
def Layout.windowOriginFails (L : Layout) (w : Window) : Bool :=
  L.displays[L.windows[w].display].width ≤ L.windows[w].x || L.displays[L.windows[w].display].height ≤ L.windows[w].y

/-- HEAD_ORIGIN fails at a head (R19). -/
def Layout.headOriginFails (L : Layout) (h : Head) : Bool :=
  match L.heads[h].owner with
  | none => false
  | some t => L.desktops[t].dw ≤ L.heads[h].originX || L.desktops[t].dh ≤ L.heads[h].originY

/-- The index of the first item a check fails at, the items in the order the check states (R17, R18, R19). -/
def Layout.failure (L : Layout) : Check → Option Nat
  | .tierOrder => ((List.finRange 3).find? L.tierOrderFails).map Fin.val
  | .slotOrder =>
    (slotOrder.find? fun q => L.tiers[q.1].used && L.slotOrderFails q.1 q.2).map fun q => slotIndex q.1 q.2
  | .slotWidth => (L.places.find? L.slotWidthFails).map fun p => slotIndex p.tier p.slot
  | .screenHeight => (L.places.find? L.screenHeightFails).map fun p => slotIndex p.tier p.slot
  | .displayReused => (firstReused [] L.places).map Fin.val
  | .displayDisabled => (L.places.find? fun p => !L.displays[p.display].enabled).map fun p => p.display.val
  | .baseUnowned => (L.places.find? fun p => L.baseUnowned p.display).map fun p => p.display.val
  | .noScreen => if L.places.isEmpty then some 0 else none
  | .windowDisplay => (L.enabledWindows.find? L.windowDisplayFails).map Fin.val
  | .windowSource => (L.enabledWindows.find? L.windowSourceFails).map Fin.val
  | .windowOrigin => (L.enabledWindows.find? L.windowOriginFails).map Fin.val
  | .headOrigin => ((List.finRange 12).find? L.headOriginFails).map Fin.val

/-- The twelve checks in order (spec 01, section 1.8). -/
def checks : List Check :=
  [.tierOrder, .slotOrder, .slotWidth, .screenHeight, .displayReused, .displayDisabled, .baseUnowned, .noScreen,
    .windowDisplay, .windowSource, .windowOrigin, .headOrigin]

/-- The first check that fails, with its index (R16). -/
def Layout.firstFailure (L : Layout) : Option (Check × Nat) := checks.findSome? fun c => (L.failure c).map fun n => (c, n)

/-- The layout passes every check. -/
def Layout.valid (L : Layout) : Bool := L.firstFailure.isNone

end Sys2Proof.Machine
end

