-- ==== Sys2Proof/Machine/Video.lean ====
section
/-! DEFINITION. Video heads and the compositor (spec 07): meanings of SIGNAL_ARRIVAL, SIGNAL_LOSS, HEAD_FRAME_END and
DISPLAY_FRAME_START, and the pixels of a picture (R142). -/

namespace Sys2Proof.Machine

/-! ## Heads (R124 to R128) -/

/-- Signal arrival at a head (R124). -/
def HeadState.arrival (h : HeadState) : HeadState :=
  match h.lock with
  | .noSignal => { h with lock := .locking, candidate := none }
  | .locking => h
  | .locked => h

/-- Signal loss at a head (R124). -/
def HeadState.loss (h : HeadState) : HeadState :=
  match h.lock with
  | .noSignal => h
  | .locking => { h with lock := .noSignal, candidate := none }
  | .locked => { h with lock := .noSignal, candidate := none, sinceLoss := 0 }

/-- The measured geometry a head stores for a frame's geometry (R125): the geometry itself, and for one outside the range R123 gives a
measured geometry a free value of that range (notes/assumptions/11.md). -/
def measuredGeometry (g : Geometry) : Geometry :=
  if geometryOk g then g else ⟨(Config.measure g.w g.h).1 % 32767 + 1, (Config.measure g.w g.h).2 % 32767 + 1⟩

/-- The frame serial advances and the finished frame is stored with it (R125, R126). -/
def HeadState.store (g : Geometry) (picture : Nat) (h : HeadState) : HeadState :=
  { h with serial := h.serial + 1, latest := some ⟨g, picture, h.serial + 1⟩ }

/-- The frame end makes the head lock (R125). -/
def HeadState.locks (g : Geometry) (h : HeadState) : Bool := h.lock = .locking && h.candidate = some g

/-- A frame end at a head (R125, R126); a head in NO_SIGNAL finishes no frame. -/
def HeadState.frameEnd (g : Geometry) (picture : Nat) (h : HeadState) : HeadState :=
  match h.lock with
  | .noSignal => h
  | .locking =>
    if h.candidate = some g then { h.store g picture with lock := .locked, candidate := none, measured := some (measuredGeometry g) }
    else { h with candidate := some g }
  | .locked =>
    if h.measured = some (measuredGeometry g) then h.store g picture
    else { h with lock := .locking, candidate := some g, sinceLoss := 0 }

/-- A display mismatches: enabled, its base head has locked since reset, and the reduced image is larger than the display (R128). -/
def State.mismatches (s : State) (d : Display) : Bool :=
  let disp := s.active.displays[d]
  disp.enabled && match disp.base with
    | none => false
    | some h =>
      match s.heads[h].measured with
      | none => false
      | some g => disp.width < g.w / 2 ^ disp.shift || disp.height < g.h / 2 ^ disp.shift

/-- GEOMETRY_MISMATCH for each display that c picks and that mismatches (R128), raised in ascending display number
(notes/assumptions/28.md). -/
def State.checkMismatch (c : Display → Bool) (s : State) : State :=
  ((List.finRange 6).filter fun d => c d && s.mismatches d).foldl
    (fun acc d => acc.raise .geometryMismatch (displaySubject d)) s

/-- What follows from a lock of head h: re-evaluation when its measured geometry changed (R127), then the mismatch check of the
displays it is the base of (R128; notes/assumptions/15.md). -/
def State.afterLock (h : Head) (changed : Bool) (s : State) : State :=
  (if changed then s.reevaluate .window 0 else s).checkMismatch fun d => s.active.displays[d].base = some h

/-- A frame end of head h (R125 to R128). -/
def State.headFrameEnd (h : Head) (g : Geometry) (picture : Nat) (s : State) : State :=
  let s1 := s.modHead h (HeadState.frameEnd g picture)
  if s.heads[h].locks g then s1.afterLock h (s.heads[h].measured != some (measuredGeometry g)) else s1

/-! ## Display frame start (R133 to R142) -/

/-- The base cost of display d in bands (R136). -/
def State.baseCost (s : State) (d : Display) : Nat :=
  let disp := s.active.displays[d]
  match disp.base with
  | none => 0
  | some h => ceilDiv (min ((s.baseGeometry d h).h / 2 ^ disp.shift) disp.height) 16

/-- The candidates of a frame start of d, in window-number order from the rotation start (R137). -/
def State.candidates (s : State) (d : Display) : List Window :=
  (rotation s.displays[d].rotation).filter fun w => s.active.windows[w].display = d && s.windowDrawn w

/-- A candidate's cost in bands (R138). -/
def State.windowCost (s : State) (w : Window) : Nat := ceilDiv (s.windowRect w).h 16

/-- Grants in order (R138): each candidate with whether it is granted out of what remains when it is tried. -/
def grants (cost : Window → Nat) (remainder : Nat) : List Window → List (Window × Bool)
  | [] => []
  | w :: ws =>
    if cost w ≤ remainder then (w, true) :: grants cost (remainder - cost w) ws else (w, false) :: grants cost remainder ws

/-- A candidate's content and age settled (R139), and its stale flag cleared when the age returns to 0 (R140). -/
def WindowState.settle (granted : Bool) (latest : Option VideoFrame) (r : WindowState) : WindowState :=
  match (if granted then latest.filter fun f => (r.content.map VideoFrame.serial) != some f.serial else none) with
  | some f => { r with content := some f, age := 0, stale := false }
  | none => { r with age := min 255 (r.age + 1) }

/-- One candidate settled and, when it turns stale, WINDOW_STALE raised (R139, R140). -/
def State.settleWindow (s : State) (q : Window × Bool) : State :=
  let s1 := s.modWindow q.1 (WindowState.settle q.2 s.heads[s.active.windows[q.1].source].latest)
  if s.desk.staleFrames ≤ s1.windows[q.1].age && !s1.windows[q.1].stale then
    (s1.modWindow q.1 fun r => { r with stale := true }).raise .windowStale (eightSubject q.1)
  else s1

/-- The rotation start after the candidates have been tried (R141). -/
def nextRotation (present : Window) (tried : List (Window × Bool)) : Window :=
  match tried.find? fun q => !q.2 with
  | some q => q.1
  | none =>
    match tried with
    | [] => present
    | [q] => q.1
    | _ :: q :: _ => q.1

/-- What the base of display d shows (R135): the output state and the frame drawn. -/
def State.baseChoice (s : State) (d : Display) : OutputState × Option VideoFrame :=
  match s.active.displays[d].base with
  | none => (.fill, none)
  | some h =>
    let hd := s.heads[h]
    if hd.lock = .locked then (.live, hd.latest)
    else if hd.latest.isSome && decide (hd.sinceLoss < s.desk.holdFrames) then (.held, hd.latest)
    else (.fill, none)

/-- The frames since loss of a base head that is not LOCKED advance (R135). -/
def State.advanceLoss (d : Display) (s : State) : State :=
  match s.active.displays[d].base with
  | none => s
  | some h => s.modHead h fun hd => if hd.lock = .locked then hd else { hd with sinceLoss := min 65535 (hd.sinceLoss + 1) }

/-- A candidate as the picture draws it, with the content it has been settled to (R142). -/
def State.windowImage (s : State) (w : Window) : WindowImage :=
  ⟨w, s.windowRect w, s.active.windows[w].shift, s.windows[w].content⟩

/-- The picture of a frame of d over a base frame, its candidates in window-number order (R142). -/
def State.picture (s : State) (d : Display) (base : Option VideoFrame) (tried : List (Window × Bool)) : Picture :=
  let disp := s.active.displays[d]
  .drawn disp.width disp.height base disp.shift
    (((List.finRange 8).filter fun w => tried.any fun q => q.1 = w).map s.windowImage)

/-- A frame start of an enabled display on an AWAKE desk (R135 to R142). -/
def State.composeFrame (d : Display) (s : State) : State :=
  let base := s.baseChoice d
  let tried := grants s.windowCost (s.budgets[d] - s.baseCost d) (s.candidates d)
  let s1 := tried.foldl State.settleWindow (s.advanceLoss d)
  s1.modDisplay d fun r =>
    { r with output := base.1, rotation := nextRotation r.rotation tried, picture := s1.picture d base.2 tried }

/-- A display frame start (R133, R134). -/
def State.displayFrame (d : Display) (s : State) : State :=
  if s.active.displays[d].enabled && s.deskState = .awake then s.composeFrame d
  else s.modDisplay d fun r => { r with output := .blank, picture := .blank }

/-! ## Pixels (R142) -/

/-- A pixel of a display: the fill colour, or pixel (x, y) of a frame reduced by a shift (notes/assumptions/10.md). -/
inductive Pixel where
  | fill
  | image (frame : VideoFrame) (shift x y : Nat)
  deriving DecidableEq, Repr

/-- Pixel (x, y) of a frame reduced by a shift and drawn from the top-left: the fill colour beyond the image (R128, R142). -/
def framePixel (content : Option VideoFrame) (shift x y : Nat) : Pixel :=
  match content with
  | none => .fill
  | some f => if x < f.geometry.w / 2 ^ shift ∧ y < f.geometry.h / 2 ^ shift then .image f shift x y else .fill

/-- The pixel at (x, y) of a picture (R142): `none` outside the display or when there is no picture; the highest-numbered window
that covers it, else the base. -/
def Picture.pixel (p : Picture) (x y : Nat) : Option Pixel :=
  match p with
  | .blank => none
  | .drawn width height base shift windows =>
    if x < width ∧ y < height then
      match windows.reverse.find? fun w => w.rect.contains x y with
      | some w => some (framePixel w.content w.shift (x - w.rect.x) (y - w.rect.y))
      | none => some (framePixel base shift x y)
    else none

/-! ## Meanings -/

/-- SIGNAL_ARRIVAL (R124). -/
def execSignalArrival (h : Head) (s : State) : Host.Outcome State Fault Refusal := running s fun s => s.modHead h HeadState.arrival

/-- SIGNAL_LOSS (R124). -/
def execSignalLoss (h : Head) (s : State) : Host.Outcome State Fault Refusal := running s fun s => s.modHead h HeadState.loss

/-- HEAD_FRAME_END (R125, R126), of a frame of any width and height. -/
def execHeadFrameEnd (h : Head) (g : Geometry) (picture : Nat) (s : State) : Host.Outcome State Fault Refusal :=
  running s (State.headFrameEnd h g picture)

/-- DISPLAY_FRAME_START (R133). -/
def execDisplayFrameStart (d : Display) (s : State) : Host.Outcome State Fault Refusal := running s (State.displayFrame d)

end Sys2Proof.Machine
end

