-- ==== Sys2Proof/Machine/Release.lean ====
section
/-! DEFINITION. A completed layout release (R20 to R22, R143): the new layout in force, the shown set and the window records settled,
re-home, what becomes of a detached focus (R59), re-evaluation and the mismatch check (R128). -/

namespace Sys2Proof.Machine

/-- A window's shown flag after a release, from its enabled field before and after (R20). -/
def shownAfter (before after shown : Bool) : Bool :=
  match before, after with
  | false, true => true
  | true, true => shown
  | true, false => false
  | false, false => false

/-- The release resets the window's content, age and stale flag: it becomes enabled, or its source head or display changes; one that
the release disables keeps its records (R143; notes/assumptions/23.md). -/
def releaseResets (old new : WindowRec) : Bool :=
  match old.enabled, new.enabled with
  | false, true => true
  | true, false => false
  | _, _ => old.source != new.source || old.display != new.display

/-- A window's record after a release (R20, R143). -/
def WindowState.release (old new : WindowRec) (r : WindowState) : WindowState :=
  let shown := shownAfter old.enabled new.enabled r.shown
  if releaseResets old new then ⟨shown, none, 0, false⟩ else { r with shown := shown }

/-- The edit layout in force, the hold closed, the window records settled (R20, R143). -/
def State.putInForce (s : State) : State :=
  { s with
    active := s.edit
    holdOwner := none
    windows := updAll s.windows fun w r => r.release s.active.windows[w] s.edit.windows[w] }

/-- One axis of re-home, in sixteenths from the screen's edge: u clamped to 0..size − 1, with fraction 15 where the clamp
reduces it (R21). -/
def rehomeAxis (size u frac : Nat) : Nat := if u < size then u * 16 + frac else (size - 1) * 16 + 15

/-- The desk pointer at a value. -/
def State.setPointer (q : Nat × Nat) (s : State) : State := { s with glide := { s.glide with px := q.1, py := q.2 } }

/-- The centre of the first screen (R4); a layout that passed its checks has one (notes/assumptions/17.md). -/
def State.centreOfFirst (s : State) : Nat × Nat :=
  match s.active.firstScreen with
  | some p => (s.active.screen p).centre
  | none => s.pointer

/-- Re-home of the desk pointer, `old` being the layout that was active before the release (R21). -/
def State.rehome (old : Layout) (s : State) : State :=
  match (old.lookup s.pointer.1 s.pointer.2).bind fun p => (s.active.placeOf p.display).map fun p' => (p, p') with
  | some (p, p') =>
    let was := old.screen p
    let now := s.active.screen p'
    s.setPointer (now.x * 16 + rehomeAxis now.w (s.pointer.1 - was.x) (s.glide.px % 16),
      now.y * 16 + rehomeAxis now.h (s.pointer.2 - was.y) (s.glide.py % 16))
  | none => s.setPointer (s.centreOfFirst.1 * 16, s.centreOfFirst.2 * 16)

/-- The accumulator is cleared (R22, R87). -/
def State.clearPressure (s : State) : State := { s with glide := { s.glide with pressure := none } }

/-- The detached pointer clamped into the focus target's desktop; an axis the clamp reduces takes fraction 15 (R59). -/
def State.clampDetached (s : State) : State :=
  let size := s.desktop s.focus.target
  { s with glide := { s.glide with
      detached := s.glide.detached.map fun q => (clampDesktop size.dw q.1, clampDesktop size.dh q.2) } }

/-- A detached focus after a release: it returns to its first region without a switch, or stays detached (R59). -/
def State.releaseDetached (s : State) : State :=
  match s.firstRegion s.focus.target with
  | some q => (s.warp q).recordRegion
  | none => s.clampDetached.recordRegion

/-- A completed layout release (R20, R21, R22, R128; notes/assumptions/15.md). -/
def State.completeLayout (s : State) : State :=
  let s1 := (s.putInForce.rehome s.active).clearPressure
  (if s1.focus.detached then s1.releaseDetached else s1.reevaluate .layout 0).checkMismatch fun _ => true

end Sys2Proof.Machine
end

