-- ==== Sys2Proof/Machine/Resets.lean ====
section
/-! DEFINITION. The resets (R49, R176, R177): the meanings of POWER_ON, HARD_RESET and RESET_N_RELEASE, and what each block does in the
six parts of DESK_RESET, which Control.lean takes in turn. -/

namespace Sys2Proof.Machine

/-- The focus record and the glide unit at hard reset and DESK_RESET (R49, R79): the pointer at the centre of the first screen of the
active layout, focus at that screen's owner, the region at the pointer. A layout that passed its checks has a first screen with an
owner (R18; notes/assumptions/17.md). -/
def State.resetFocus (s : State) : State :=
  match s.active.firstScreen with
  | none => s
  | some p =>
    let c := (s.active.screen p).centre
    { s with
      glide := Glide.at c.1 c.2
      focus := {
        target := (s.active.displayOwner p.display).getD s.focus.target
        region := (s.regionAt c.1 c.2).getD (.screen p.display)
        cause := .reset
        lock := false
        detached := false
        history := [] } }

/-- A hard reset (R176): the sampled straps, the tables and the active layout are kept; the edit layout and the hold are discarded (R10);
every block takes its hard-reset values (R23, R30, R39, R49, R64, R79, R101, R123, R132, R156, R160, R163, R173). No timer runs while
RESET_N stays asserted. -/
def State.hardReset (s : State) : State :=
  ({ s with
    resetAsserted := true
    edit := s.active
    holdOwner := none
    ports := Vector.ofFn fun _ => ConsolePort.initial
    mergeLast := 3
    detector := Detector.initial
    keyStates := Vector.ofFn fun _ => KeyState.initial
    targets := Vector.ofFn fun _ => TargetPort.initial
    deskState := .awake
    idleTimer := none
    heads := Vector.ofFn fun _ => HeadState.initial
    displays := Vector.ofFn fun _ => DisplayState.initial
    windows := Vector.ofFn fun _ => WindowState.initial
    ctrlLast := 7
    executing := none
    notices := Vector.ofFn fun _ => 0
    subscribers := 0 } : State).resetFocus

/-- RESET_N is released: the idle timer is started if desk idle is above 0 (R156, R160, R176; notes/assumptions/8.md). -/
def State.releaseReset (s : State) : State :=
  if s.resetAsserted then
    { s with resetAsserted := false, idleTimer := if s.desk.deskIdle = 0 then none else some s.desk.deskIdle }
  else s

/-! ## DESK_RESET (R177) -/

/-- A WAKING target becomes SUSPENDED (R161). -/
def TargetPort.cancelWake (p : TargetPort) : TargetPort :=
  if p.power = .waking then { p with power := .suspended, wakeTimer := none, retry := 0, hold := [] } else p

/-- Part 1, the wake unit (R161). -/
def State.deskResetWake (s : State) : State := { s with targets := updAll s.targets fun _ p => p.cancelWake }

/-- Every snapshot key and modifier and every held button is placed in the port's suppressed set (R23). -/
def ConsolePort.suppressHeld (port : ConsolePort) : ConsolePort := port.suppressAll port.snapKeys port.snapMods port.held

/-- Part 2, the focus unit, console ports and detector (R23, R48, R49, R64), with the C_LEDS of R38. -/
def State.deskResetFocus (s : State) : State :=
  let s1 := (List.finRange 8).foldl (fun acc t => acc.clearInput t) s
  let s2 := { s1 with ports := updAll s1.ports fun _ port => port.suppressHeld, detector := Detector.initial }
  s2.resetFocus.ledsToFollowers

/-- What DESK_RESET leaves of a target port before its resync (R122), by the power state part 3 finds (notes/assumptions/30.md). -/
def TargetPort.deskReset (p : TargetPort) : TargetPort :=
  { p.emptyQueue.clearSync with hold := [], resync := p.power = .active }

/-- Part 3, the target ports (R122): emptied, then resynced. -/
def State.deskResetPorts (s : State) : State :=
  (List.finRange 8).foldl (fun acc t => acc.portEnd t) { s with targets := updAll s.targets fun _ p => p.deskReset }

/-- Part 4, the compositor (R132, R140): ages 0 and stale flags clear. Part 5 abandons an open hold (R10). -/
def State.deskResetWindows (s : State) : State :=
  { s with windows := updAll s.windows fun _ r => { r with age := 0, stale := false } }

/-- Part 6, the notice record (R177): every subject set emptied, and with it every flag. -/
def State.deskResetNotices (s : State) : State := { s with notices := Vector.ofFn fun _ => 0 }

/-- The focus unit, ports, windows, layout store or notice record take the part a stage names (R177). -/
def State.takePart (stage : ResetStage) (s : State) : State :=
  match stage with
  | .focusUnit => s.deskResetFocus
  | .targetPorts => s.deskResetPorts
  | .compositor => s.deskResetWindows
  | .layoutStore => s.abandonHold
  | .noticeRecord => s.deskResetNotices
  | .answer => s

/-- The stage after this one, in the order of R177; the reply is the last. -/
def ResetStage.next : ResetStage → Option ResetStage
  | .focusUnit => some .targetPorts
  | .targetPorts => some .compositor
  | .compositor => some .layoutStore
  | .layoutStore => some .noticeRecord
  | .noticeRecord => some .answer
  | .answer => none

/-! ## Meanings -/

/-- POWER_ON (R176) with the strap levels it samples (R165). -/
def execPowerOn (cfgt : Target) (lock : Bool) (s : State) : Host.Outcome State Fault Refusal :=
  .next { State.powerOn cfgt lock with pending := s.pending }

/-- HARD_RESET (R176). -/
def execHardReset (s : State) : Host.Outcome State Fault Refusal := .next s.hardReset

/-- RESET_N_RELEASE (R176). -/
def execResetNRelease (s : State) : Host.Outcome State Fault Refusal := .next s.releaseReset

end Sys2Proof.Machine
end

