-- ==== Sys2Proof/Machine/Control.lean ====
section
/-! DEFINITION. The control engine (spec 09): the frame it takes next, its reply, and the meanings of the thirteen commands and of
BAD_COMMAND. A row takes the next frame in rotation when that frame is of the row's command, and has no effect otherwise, nor while
another command is being executed (notes/assumptions/4.md); DESK_RESET and STATUS_READ are executed part by part (notes/assumptions/29.md). -/

namespace Sys2Proof.Machine

/-- A reply code with its data (R164). -/
structure Answer where
  code : ReplyCode
  data : List Byte
  deriving DecidableEq, Repr

/-- A number below 256 as one byte of data. -/
def byteOf (v : Nat) : Byte := BitVec.ofNat 8 v

/-- OK with data (R164). -/
def okWith (data : List Byte) : Answer := ⟨.ok, data⟩

/-- BAD_VALUE naming the k-th argument byte (R181). -/
def badArgument (k : Nat) : Answer := ⟨.badValue, [byteOf (0xE0 + k)]⟩

/-! ## The engine (R163, R164) -/

/-- The frame the engine takes next, with its sender: the first occupied inbox after the rotation pointer (R163). -/
def State.nextFrame (s : State) : Option (Target × ControlFrame) :=
  (rotation (succWrap s.ctrlLast)).findSome? fun t => s.targets[t].inbox.map fun f => (t, f)

/-- The T_REPLY is sent, and the sender's inbox becomes empty (R164). -/
def State.reply (t : Target) (f : ControlFrame) (a : Answer) (s : State) : State :=
  (s.sendTo t (.reply t f.tag a.code a.data)).modTarget t fun p => { p with inbox := none }

/-- The engine, when it is free, takes the next frame when step 2 of R163 classifies it as c (`none`: BAD_COMMAND): the rotation pointer
names the sender, a sender without control permit is answered NOT_PERMITTED, and otherwise the command is run (R163). While it is
executing a command the engine takes no frame (R163, R178). -/
def State.takeFrame (c : Option ControlCommand) (run : Target → ControlFrame → State → State) (s : State) : State :=
  if s.executing.isSome then s
  else
    match s.nextFrame with
    | none => s
    | some (t, f) =>
      if controlCommand f.command f.args = c then
        let s1 := { s with ctrlLast := t }
        if s.policies[t].permit then run t f s1 else s1.reply t f ⟨.notPermitted, []⟩
      else s

/-- A command executed as one event: the body's effects are taken and answered (R163, R164). -/
def State.control (c : Option ControlCommand) (body : Target → List Byte → State → State × Answer) (s : State) : State :=
  s.takeFrame c fun t f s1 => (body t f.args s1).1.reply t f (body t f.args s1).2

/-! ## Tables (R168) -/

/-- TABLE_READ (R13, R168): OK with table, index and record, or BAD_VALUE naming TABLE or INDEX. -/
def State.doTableRead (t : Target) (args : List Byte) (s : State) : State × Answer :=
  match tableEntry (arg args 1) (arg args 2) with
  | .ok e => (s, okWith (args ++ joinFields e.specs (s.fieldsOf t e)))
  | .error item => (s, ⟨.badValue, [item]⟩)

/-- TABLE_WRITE (R12, R36, R63, R76, R166, R168, R169). -/
def State.doTableWrite (t : Target) (args : List Byte) (s : State) : State × Answer :=
  match tableEntry (arg args 1) (arg args 2) with
  | .ok e =>
    let new := splitFields e.specs (args.drop 2)
    match s.refusal t e new with
    | some (code, n) => (s, ⟨code, [byteOf n]⟩)
    | none => (s.writeEntry t e new, okWith [])
  | .error item => (s, ⟨.badValue, [item]⟩)

/-! ## The layout hold (R11, R14, R16) -/

/-- LAYOUT_HOLD (R11). -/
def State.doLayoutHold (t : Target) (_ : List Byte) (s : State) : State × Answer :=
  match s.holdOwner with
  | none => ({ s with holdOwner := some t, edit := s.active }, okWith [])
  | some o => if o = t then (s, okWith []) else (s, ⟨.busy, []⟩)

/-- LAYOUT_ABANDON (R14). -/
def State.doLayoutAbandon (t : Target) (_ : List Byte) (s : State) : State × Answer :=
  if s.holdOwner = some t then (s.abandonHold, okWith []) else (s, ⟨.notHeld, []⟩)

/-- LAYOUT_RELEASE (R16, R20, R21, R22). -/
def State.doLayoutRelease (t : Target) (_ : List Byte) (s : State) : State × Answer :=
  if s.holdOwner = some t then
    match s.edit.firstFailure with
    | some (c, n) => (s, ⟨.layoutInvalid, [byteOf c.code, byteOf n]⟩)
    | none => (s.completeLayout, okWith [])
  else (s, ⟨.notHeld, []⟩)

/-! ## Focus, wake, windows (R170, R171) -/

/-- FOCUS_SET (R170). -/
def State.doFocusSet (_ : Target) (args : List Byte) (s : State) : State × Answer :=
  match numOpt 8 (arg args 1) with
  | none => (s, badArgument 1)
  | some u =>
    let s1 := s.directed u .control 0
    (s1, okWith [byteOf s1.focus.target.val, byteOf (flagNum s1.focus.detached)])

/-- WAKE (R171): the reply carries the power state the wake unit found. -/
def State.doWake (_ : Target) (args : List Byte) (s : State) : State × Answer :=
  match numOpt 8 (arg args 1) with
  | none => (s, badArgument 1)
  | some u => (s.wakeRequest u, okWith [byteOf s.targets[u].power.code])

/-- WINDOW_SHOW of window w with a shown value (R131, R171). -/
def State.showWindow (w : Window) (shown : Bool) (s : State) : State × Answer :=
  if s.active.windows[w].enabled then
    let s1 :=
      if s.windows[w].shown = shown then s
      else (s.modWindow w fun r => { r with shown := shown }).reevaluate .window 0
    (s1, okWith [byteOf (flagNum s1.windows[w].shown)])
  else (s, ⟨.notEnabled, []⟩)

/-- WINDOW_SHOW (R171, R181). -/
def State.doWindowShow (_ : Target) (args : List Byte) (s : State) : State × Answer :=
  match numOpt 8 (arg args 1) with
  | none => (s, badArgument 1)
  | some w => if arg args 2 ≤ 1 then s.showWindow w (arg args 2 = 1) else (s, badArgument 2)

/-! ## Status (R172, spec 10.6) -/

/-- The history bytes, most recent first, 255 where unused (spec 10.6). -/
def historyBytes (h : List Target) : List Byte := (List.range 4).map fun i => byteOf (optNum h[i]?)

/-- One entry of the key-state table as a TARGET section carries it (spec 10.6). -/
def KeyEntry.bytes (e : KeyEntry) : List Byte := [e.key, byteOf e.sources.toNat] ++ beBytes 2 e.seq.toNat

/-- The blocks at which the section a selector names is read, in the order of 10.6's items (R172, R181); R172 gives no order
(notes/assumptions/31.md). -/
def statusBlocks (selector : Nat) : Option (List StatusBlock) :=
  if selector = 0 then some [.controlEngine, .wakeUnit, .layoutStore, .focusUnit, .glideUnit, .targetPorts, .videoHeads]
  else if selector < 0x10 then none
  else
    match numOpt 8 (selector - 0x10) with
    | some t => some [.inputState t, .targetPort t]
    | none => if selector < 0x20 then none else (numOpt 4 (selector - 0x20)).map fun p => [.consolePort p]

/-- The focus record as GENERAL carries it (spec 10.6). -/
def Focus.bytes (r : Focus) : List Byte :=
  [byteOf r.target.val, byteOf r.region.code, byteOf r.cause.code, byteOf (flagNum r.lock + 2 * flagNum r.detached),
    byteOf r.history.length] ++ historyBytes r.history

/-- The desk pointer and the detached pointer as GENERAL carries them (spec 10.6). -/
def Glide.bytes (g : Glide) : List Byte :=
  beBytes 3 g.px ++ beBytes 3 g.py ++ [byteOf (flagNum g.detached.isSome)] ++
  beBytes 3 (g.detached.getD (0, 0)).1 ++ beBytes 3 (g.detached.getD (0, 0)).2

/-- The focus unit's items of a TARGET section (R39, R40, spec 10.6): modifier record, button record, press counter and key entries. -/
def KeyState.bytes (ks : KeyState) : List Byte :=
  ((List.finRange 4).map fun i => byteOf (ks.mods[2 * i.val].toNat + 16 * ks.mods[2 * i.val + 1].toNat)) ++
  [byteOf (ks.buttons[0].toNat + 16 * ks.buttons[1].toNat), byteOf (ks.buttons[2].toNat + 16 * ks.buttons[3].toNat),
    byteOf ks.buttons[4].toNat] ++
  beBytes 2 ks.counter.toNat ++ ks.keys.flatMap KeyEntry.bytes

/-- The target port's items join those of the focus unit in a TARGET section (spec 10.6): the resync flag in bit 4 of byte 6, and the
credit count and the queue depths as bytes 9 to 11. -/
def TargetPort.joinBytes (p : TargetPort) (data : List Byte) : List Byte :=
  data.take 6 ++ [data.getD 6 0 + byteOf (16 * flagNum p.resync)] ++ (data.drop 7).take 2 ++
  [byteOf p.credit, byteOf p.queue.length, byteOf p.hold.length] ++ data.drop 9

/-- A PORT section (spec 10.6). -/
def ConsolePort.bytes (c : ConsolePort) : List Byte :=
  [byteOf (classCode c.cls + 128 * flagNum c.attached), c.supMods, byteOf c.supButtons.toNat] ++ c.supKeys

/-- A block's items, read together as one event at that block, join the section's data (R172, spec 10.6). -/
def State.readBlock (b : StatusBlock) (data : List Byte) (s : State) : List Byte :=
  match b with
  | .controlEngine => data ++ [byteOf (s.cfgt.val + 128 * flagNum s.lockStrap)]
  | .wakeUnit => data ++ [byteOf s.deskState.code]
  | .layoutStore => data ++ [byteOf (optNum s.holdOwner)]
  | .focusUnit => data ++ s.focus.bytes
  | .glideUnit => data ++ s.glide.bytes
  | .targetPorts =>
    data ++ (List.finRange 8).map fun t => byteOf (s.targets[t].power.code + 16 * modeCode s.targets[t].mode)
  | .videoHeads =>
    data ++ (List.finRange 6).map fun i => byteOf (s.heads[2 * i.val].lock.code + 16 * s.heads[2 * i.val + 1].lock.code)
  | .inputState t => data ++ s.keyStates[t].bytes
  | .targetPort t => s.targets[t].joinBytes data
  | .consolePort p => data ++ s.ports[p].bytes

/-! ## Notices (R174, R175) -/

/-- The code of a kind, or of NONE (R180). -/
def kindCode : Option NoticeKind → Nat
  | none => 0
  | some k => k.index.val + 1

/-- The eight flags as a mask, bit k − 1 for kind k (spec 10.4). -/
def State.noticeFlags (s : State) : BitVec 8 := maskOf 8 fun i => s.notices[i] != 0

/-- NOTICE_READ (R174). -/
def State.doNoticeRead (_ : Target) (_ : List Byte) (s : State) : State × Answer :=
  (s, okWith ([s.noticeFlags] ++ (s.notices.toList.flatMap fun n => beBytes 2 n.toNat) ++ [byteOf (kindCode s.pendingKind)]))

/-- The named subjects leave a kind's set (R174). -/
def State.clearNotice (k : NoticeKind) (set : SubjectSet) (s : State) : State :=
  { s with notices := upd s.notices k.index fun n => minus n set }

/-- NOTICE_CLEAR (R174, R181). -/
def State.doNoticeClear (_ : Target) (args : List Byte) (s : State) : State × Answer :=
  match noticeKindOf (arg args 1) with
  | none => (s, badArgument 1)
  | some k =>
    let set : SubjectSet := BitVec.ofNat 16 (beValue (args.drop 1))
    if minus set k.subjects != 0 then (s, badArgument 2)
    else (s.clearNotice k set, okWith (beBytes 2 ((s.clearNotice k set).subjects k).toNat))

/-- NOTICE_SUBSCRIBE (R175, R181). -/
def State.doNoticeSubscribe (t : Target) (args : List Byte) (s : State) : State × Answer :=
  if arg args 1 = 0 then ({ s with subscribers := remove s.subscribers t }, okWith [0])
  else if arg args 1 = 1 then ({ s with subscribers := adjoin s.subscribers t }, okWith [1])
  else (s, badArgument 1)

/-- A frame refused by step 2 of R163. -/
def State.doBadCommand (_ : Target) (_ : List Byte) (s : State) : State × Answer := (s, ⟨.badCommand, []⟩)

/-! ## Commands executed in parts (R163, R172, R177, R178) -/

/-- The command whose parts these are. -/
def EngineWork.command : EngineWork → ControlCommand
  | .reset _ => .deskReset
  | .status _ _ => .statusRead

/-- The row that goes on with it. -/
def EngineWork.row : EngineWork → Instr
  | .reset _ => .deskReset
  | .status _ _ => .statusRead

/-- The engine answers the command it was executing and is free again; a sender torn down meanwhile gets no reply (R164, R178). -/
def State.finish (e : Execution) (a : Answer) (s : State) : State :=
  let s1 := { s with executing := none }
  match e.frame with
  | some f => s1.reply e.sender f a
  | none => s1

/-- The next part of a command being executed, or its reply: the next part of a DESK_RESET (R177, R178), the read at the next block of a
STATUS_READ (R172). -/
def State.goOn (e : Execution) (s : State) : State :=
  match e.work with
  | .reset stage =>
    match stage.next with
    | some n => { s.takePart stage with executing := some { e with work := .reset n } }
    | none => s.finish e (okWith [])
  | .status (b :: left) data => { s with executing := some { e with work := .status left (s.readBlock b data) } }
  | .status [] data => s.finish e (okWith data)

/-- A row of a command executed in parts: a free engine takes the frame and begins; an engine executing this command goes on with it; one
executing another command does nothing here (notes/assumptions/29.md). -/
def State.controlPart (c : ControlCommand) (start : Target → ControlFrame → State → State) (s : State) : State :=
  match s.executing with
  | none => s.takeFrame (some c) start
  | some e => if e.work.command = c then s.goOn e else s

/-- DESK_RESET is begun (R177): part 1 is taken, and the engine is busy with the rest. -/
def State.beginDeskReset (t : Target) (f : ControlFrame) (s : State) : State :=
  { s.deskResetWake with executing := some ⟨t, some f, .reset .focusUnit⟩ }

/-- STATUS_READ is begun (R172, R181): the first block of the section is read, and the engine is busy with the rest; a selector that names
no section is answered BAD_VALUE. -/
def State.beginStatusRead (t : Target) (f : ControlFrame) (s : State) : State :=
  match statusBlocks (arg f.args 1) with
  | some blocks => s.goOn ⟨t, some f, .status blocks []⟩
  | none => s.reply t f (badArgument 1)

/-! ## Meanings -/

/-- TABLE_READ (R168). -/
def execTableRead (s : State) : Host.Outcome State Fault Refusal := running s (State.control (some .tableRead) State.doTableRead)

/-- TABLE_WRITE (R168). -/
def execTableWrite (s : State) : Host.Outcome State Fault Refusal :=
  running s (State.control (some .tableWrite) State.doTableWrite)

/-- LAYOUT_HOLD (R11). -/
def execLayoutHold (s : State) : Host.Outcome State Fault Refusal :=
  running s (State.control (some .layoutHold) State.doLayoutHold)

/-- LAYOUT_RELEASE (R16). -/
def execLayoutRelease (s : State) : Host.Outcome State Fault Refusal :=
  running s (State.control (some .layoutRelease) State.doLayoutRelease)

/-- LAYOUT_ABANDON (R14). -/
def execLayoutAbandon (s : State) : Host.Outcome State Fault Refusal :=
  running s (State.control (some .layoutAbandon) State.doLayoutAbandon)

/-- FOCUS_SET (R170). -/
def execFocusSet (s : State) : Host.Outcome State Fault Refusal := running s (State.control (some .focusSet) State.doFocusSet)

/-- WAKE (R171). -/
def execWake (s : State) : Host.Outcome State Fault Refusal := running s (State.control (some .wake) State.doWake)

/-- WINDOW_SHOW (R131, R171). -/
def execWindowShow (s : State) : Host.Outcome State Fault Refusal :=
  running s (State.control (some .windowShow) State.doWindowShow)

/-- STATUS_READ (R172). The row stands for the read at one block: it begins with the first block where the next frame asks for a section,
and reads the next block, or after the last one sends the reply, of a STATUS_READ being executed. Other rows may stand between
(notes/assumptions/29.md, notes/assumptions/31.md). -/
def execStatusRead (s : State) : Host.Outcome State Fault Refusal :=
  running s (State.controlPart .statusRead State.beginStatusRead)

/-- NOTICE_READ (R174). -/
def execNoticeRead (s : State) : Host.Outcome State Fault Refusal :=
  running s (State.control (some .noticeRead) State.doNoticeRead)

/-- NOTICE_CLEAR (R174). -/
def execNoticeClear (s : State) : Host.Outcome State Fault Refusal :=
  running s (State.control (some .noticeClear) State.doNoticeClear)

/-- NOTICE_SUBSCRIBE (R175). -/
def execNoticeSubscribe (s : State) : Host.Outcome State Fault Refusal :=
  running s (State.control (some .noticeSubscribe) State.doNoticeSubscribe)

/-- DESK_RESET (R177, R178). The row stands for one part: it begins a reset where the next frame asks for one, and takes the next part,
or after part 6 the reply, of a reset being executed. Other rows may stand between (notes/assumptions/29.md). -/
def execDeskReset (s : State) : Host.Outcome State Fault Refusal :=
  running s (State.controlPart .deskReset State.beginDeskReset)

/-- BAD_COMMAND (R163). -/
def execBadCommand (s : State) : Host.Outcome State Fault Refusal := running s (State.control none State.doBadCommand)

end Sys2Proof.Machine
end

