-- ==== Sys2Proof/Machine/TargetLane.lean ====
section
/-! DEFINITION. The target lanes (spec 06): meanings of the P_ frames less P_POWER, lane loss, SEND_REPORT and the stall. -/

namespace Sys2Proof.Machine

/-- A frame that fails steps 1 to 3 of R102 is discarded and raises LANE_ERROR for the target port. -/
def State.targetLaneError (t : Target) (s : State) : State := s.raise .laneError (targetLaneSubject t)

/-- What an attach makes of a torn-down port: LED state and last target point are left (R103). -/
def TargetPort.attach (mode : Mode) (p : TargetPort) : TargetPort :=
  { p.clearSync with attached := true, power := .active, mode := mode, credit := 0, queue := [], resync := false, stall := none }

/-- P_ATTACH taken: an attach, after a teardown when the port was ATTACHED (R103, R105). -/
def State.attachTarget (t : Target) (mode : Mode) (s : State) : State :=
  (if s.targets[t].attached then s.teardown t else s).modTarget t (TargetPort.attach mode)

/-- P_DETACH or lane loss taken: a teardown of an ATTACHED port (R104). -/
def State.detachTarget (t : Target) (s : State) : State := if s.targets[t].attached then s.teardown t else s

/-- Steps 1 to 3 of a mode change on the port (R108), with the record CLEARED (step 4). -/
def TargetPort.changeMode (mode : Mode) (p : TargetPort) : TargetPort :=
  { p.emptyQueue.clearSync with hold := [], mode := mode, resync := true }

/-- P_MODE taken (R108): a relative focus target's sync is requested, then the event ends. -/
def State.changeMode (t : Target) (mode : Mode) (s : State) : State :=
  let s1 := s.modTarget t (TargetPort.changeMode mode)
  let s2 := if t = s.focus.target then s1.modTarget t (TargetPort.requestSync (s.desktop t)) else s1
  s2.portEnd t

/-- P_CREDIT on the port: the count saturates at 32 and the stall timer stops (R113, R114). -/
def TargetPort.addCredit (n : Nat) (p : TargetPort) : TargetPort :=
  { p with credit := min Config.creditMax (p.credit + n), stall := none }

/-- P_CREDIT taken (R113). -/
def State.grantCredit (t : Target) (n : Nat) (s : State) : State := (s.modTarget t (TargetPort.addCredit n)).portEnd t

/-- P_LEDS taken (R121), with the C_LEDS of R38. -/
def State.reportLeds (t : Target) (leds : LedSet) (s : State) : State :=
  ((s.modTarget t fun p => { p with leds := leds }).portEnd t).ledsOfTarget t

/-- A P_CONTROL offered to its inbox (R162): taken in, or answered BUSY at once. -/
def State.offerControl (t : Target) (f : ControlFrame) (s : State) : State :=
  if s.targets[t].inbox.isSome then s.sendTo t (.reply t f.tag .busy [])
  else s.modTarget t fun p => { p with inbox := some f }

/-- The head report leaves, and a credit with it (R113). -/
def TargetPort.popReport (rest : List Report) (p : TargetPort) : TargetPort :=
  { p with queue := rest, credit := p.credit - 1 }

/-- One send (R113): the head report leaves when the queue is not empty and credit is above 0. -/
def State.sendReport (t : Target) (s : State) : State :=
  match s.targets[t].queue with
  | [] => s
  | r :: rest =>
    if s.targets[t].credit = 0 then s
    else ((s.sendTo t (.report t r)).modTarget t (TargetPort.popReport rest)).portEnd t

/-- What a stall does to the port (R115). -/
def TargetPort.stalled (p : TargetPort) : TargetPort := { p.emptyQueue.clearSync with resync := true }

/-- The stall timer of t expires, if it is running (R115). -/
def State.stallExpiry (t : Target) (s : State) : State :=
  if s.targets[t].stall.isNone then s
  else ((s.modTarget t TargetPort.stalled).raise .targetStalled (eightSubject t)).portEnd t

/-! ## Meanings -/

/-- A frame other than P_ATTACH on a target lane: on an UNATTACHED port it is discarded without notice (step 4 of R102). -/
def onAttached (t : Target) (f : State → State) (s : State) : State := if s.targets[t].attached then f s else s

/-- P_ATTACH (R103, R105). -/
def execPAttach (t : Target) (mode : Mode) (s : State) : Host.Outcome State Fault Refusal :=
  running s (State.attachTarget t mode)

/-- P_DETACH (R104). -/
def execPDetach (t : Target) (s : State) : Host.Outcome State Fault Refusal := running s (State.detachTarget t)

/-- TARGET_LANE_LOSS (R104). -/
def execTargetLaneLoss (t : Target) (s : State) : Host.Outcome State Fault Refusal := running s (State.detachTarget t)

/-- P_MODE (R108). -/
def execPMode (t : Target) (mode : Mode) (s : State) : Host.Outcome State Fault Refusal :=
  running s (onAttached t (State.changeMode t mode))

/-- P_CREDIT (R102, R113): an n outside 1..32 raises LANE_ERROR. -/
def execPCredit (t : Target) (n : Byte) (s : State) : Host.Outcome State Fault Refusal :=
  running s fun s => if creditOk n then onAttached t (State.grantCredit t n.toNat) s else s.targetLaneError t

/-- P_LEDS (R102, R121): a member outside the five LEDs raises LANE_ERROR. -/
def execPLeds (t : Target) (leds : Byte) (s : State) : Host.Outcome State Fault Refusal :=
  running s fun s => if ledByteOk leds then onAttached t (State.reportLeds t (leds.setWidth 5)) s else s.targetLaneError t

/-- P_CONTROL (R102, R162): a payload over 62 bytes fails the check of R179 and raises LANE_ERROR. -/
def execPControl (t : Target) (tag command : Byte) (args : List Byte) (s : State) : Host.Outcome State Fault Refusal :=
  running s fun s =>
    if controlArgsOk args then onAttached t (State.offerControl t ⟨tag, command, args⟩) s else s.targetLaneError t

/-- BAD_TARGET_FRAME (R102, R179): bytes that fail a check raise LANE_ERROR. Bytes that pass them all are no such frame, and then
nothing happens (notes/assumptions/19.md). -/
def execBadTargetFrame (t : Target) (bytes : List Byte) (s : State) : Host.Outcome State Fault Refusal :=
  running s fun s => if (targetCommand t bytes).isNone then s.targetLaneError t else s

/-- SEND_REPORT (R113). -/
def execSendReport (t : Target) (s : State) : Host.Outcome State Fault Refusal := running s (State.sendReport t)

/-- STALL_TIMER_EXPIRY (R115). -/
def execStallTimerExpiry (t : Target) (s : State) : Host.Outcome State Fault Refusal := running s (State.stallExpiry t)

end Sys2Proof.Machine
end

