-- ==== Sys2Proof/Machine/WakeIdle.lean ====
section
/-! DEFINITION. Power states, the wake handshake and desk idle (spec 08): meanings of P_POWER, WAKE_TIMER_EXPIRY and
IDLE_TIMER_EXPIRY. -/

namespace Sys2Proof.Machine

/-- What a suspension leaves of the port (R147). -/
def TargetPort.suspend (p : TargetPort) : TargetPort :=
  { p.emptyQueue.clearSync with hold := [], resync := false, power := .suspended }

/-- A suspension of t (R147). -/
def State.suspend (t : Target) (s : State) : State := (s.clearInput t).modTarget t TargetPort.suspend

/-- Steps 1 to 5 of a resumption on the port (R148). -/
def TargetPort.resume (coalesce : Nat) (size : DeskSize) (p : TargetPort) : TargetPort :=
  let p1 := { p with wakeTimer := none, retry := 0, power := .active, hold := [] }
  let moved := p.hold.foldl (fun acc r => acc.offer coalesce r) p1
  let p2 : TargetPort := { moved with resync := true }
  if p2.sync.phase = .pending then p2.startHome size else p2

/-- A resumption of t (R148), ending as any event of the port does. -/
def State.resume (t : Target) (s : State) : State :=
  (s.modTarget t (TargetPort.resume s.desk.coalesce (s.desktop t))).portEnd t

/-- A P_POWER taken on an ATTACHED port (R146). -/
def State.takePower (t : Target) (v : PowerValue) (s : State) : State :=
  match v, s.targets[t].power with
  | .active, .suspended => s.resume t
  | .active, .waking => s.resume t
  | .active, .active => s
  | .active, .absent => s
  | .suspended, .active => s.suspend t
  | .suspended, .suspended => s
  | .suspended, .waking => s
  | .suspended, .absent => s

/-- A wake failure on the port (R152). -/
def TargetPort.failWake (p : TargetPort) : TargetPort := { p with wakeTimer := none, retry := 0, power := .suspended, hold := [] }

/-- A wake failure of t (R152). -/
def State.failWake (t : Target) (s : State) : State :=
  ((s.modTarget t TargetPort.failWake).clearInput t).raise .wakeFailed (eightSubject t)

/-- The wake timer of a WAKING target expires: retry, or failure (R151). -/
def State.wakeExpiry (t : Target) (s : State) : State :=
  if s.targets[t].power = .waking ∧ s.targets[t].wakeTimer.isSome then
    if s.targets[t].retry < s.policies[t].wakeRetry then
      (s.sendTo t (.wake t)).modTarget t fun p => { p with retry := p.retry + 1, wakeTimer := some s.desk.wakeTimeout }
    else s.failWake t
  else s

/-- What keeps an idle desk AWAKE (R158): a WAKING target, an open hold, or a set notice flag. -/
def State.staysAwake (s : State) : Bool :=
  ((List.finRange 8).any fun t => s.targets[t].power = .waking) || s.holdOwner.isSome || s.anyNotice

/-- The idle timer expires, if it is running (R158). -/
def State.idleExpiry (s : State) : State :=
  if s.idleTimer.isNone then s
  else if s.staysAwake then { s with idleTimer := some s.desk.deskIdle }
  else { s with deskState := .idle, idleTimer := none }

/-! ## Meanings -/

/-- P_POWER (R102, R146): on an UNATTACHED port it is discarded. -/
def execPPower (t : Target) (value : PowerValue) (s : State) : Host.Outcome State Fault Refusal :=
  running s fun s => if s.targets[t].attached then s.takePower t value else s

/-- WAKE_TIMER_EXPIRY (R151). -/
def execWakeTimerExpiry (t : Target) (s : State) : Host.Outcome State Fault Refusal := running s (State.wakeExpiry t)

/-- IDLE_TIMER_EXPIRY (R158). -/
def execIdleTimerExpiry (s : State) : Host.Outcome State Fault Refusal := running s State.idleExpiry

end Sys2Proof.Machine
end

