-- ==== Sys2Proof/Machine/Dispatch.lean ====
section
/-! DEFINITION. The meaning of every command: one arm per constructor, each a direct call. -/

namespace Sys2Proof.Machine

def exec (i : Instr) (s : State) : Host.Outcome State Fault Refusal :=
  match i with
  | .powerOn cfgt lock => Sys2Proof.Machine.execPowerOn cfgt lock s
  | .hardReset => Sys2Proof.Machine.execHardReset s
  | .resetNRelease => Sys2Proof.Machine.execResetNRelease s
  | .cAttach p cls => Sys2Proof.Machine.execCAttach p cls s
  | .cKeys p mods list => Sys2Proof.Machine.execCKeys p mods list s
  | .cMotion p dx dy wheel buttons => Sys2Proof.Machine.execCMotion p dx dy wheel buttons s
  | .cDetach p => Sys2Proof.Machine.execCDetach p s
  | .consoleLaneLoss p => Sys2Proof.Machine.execConsoleLaneLoss p s
  | .mergeTakeEntry => Sys2Proof.Machine.execMergeTakeEntry s
  | .tapDeadlineExpiry => Sys2Proof.Machine.execTapDeadlineExpiry s
  | .leaderDeadlineExpiry => Sys2Proof.Machine.execLeaderDeadlineExpiry s
  | .pAttach t mode => Sys2Proof.Machine.execPAttach t mode s
  | .pDetach t => Sys2Proof.Machine.execPDetach t s
  | .targetLaneLoss t => Sys2Proof.Machine.execTargetLaneLoss t s
  | .pMode t mode => Sys2Proof.Machine.execPMode t mode s
  | .pCredit t n => Sys2Proof.Machine.execPCredit t n s
  | .pLeds t leds => Sys2Proof.Machine.execPLeds t leds s
  | .pPower t value => Sys2Proof.Machine.execPPower t value s
  | .pControl t tag command args => Sys2Proof.Machine.execPControl t tag command args s
  | .sendReport t => Sys2Proof.Machine.execSendReport t s
  | .stallTimerExpiry t => Sys2Proof.Machine.execStallTimerExpiry t s
  | .wakeTimerExpiry t => Sys2Proof.Machine.execWakeTimerExpiry t s
  | .idleTimerExpiry => Sys2Proof.Machine.execIdleTimerExpiry s
  | .signalArrival h => Sys2Proof.Machine.execSignalArrival h s
  | .signalLoss h => Sys2Proof.Machine.execSignalLoss h s
  | .headFrameEnd h g picture => Sys2Proof.Machine.execHeadFrameEnd h g picture s
  | .displayFrameStart d => Sys2Proof.Machine.execDisplayFrameStart d s
  | .tableRead => Sys2Proof.Machine.execTableRead s
  | .tableWrite => Sys2Proof.Machine.execTableWrite s
  | .layoutHold => Sys2Proof.Machine.execLayoutHold s
  | .layoutRelease => Sys2Proof.Machine.execLayoutRelease s
  | .layoutAbandon => Sys2Proof.Machine.execLayoutAbandon s
  | .focusSet => Sys2Proof.Machine.execFocusSet s
  | .wake => Sys2Proof.Machine.execWake s
  | .windowShow => Sys2Proof.Machine.execWindowShow s
  | .statusRead => Sys2Proof.Machine.execStatusRead s
  | .noticeRead => Sys2Proof.Machine.execNoticeRead s
  | .noticeClear => Sys2Proof.Machine.execNoticeClear s
  | .noticeSubscribe => Sys2Proof.Machine.execNoticeSubscribe s
  | .deskReset => Sys2Proof.Machine.execDeskReset s
  | .badCommand => Sys2Proof.Machine.execBadCommand s
  | .badConsoleFrame p bytes => Sys2Proof.Machine.execBadConsoleFrame p bytes s
  | .badTargetFrame t bytes => Sys2Proof.Machine.execBadTargetFrame t bytes s

end Sys2Proof.Machine
end

