-- ==== Sys2Proof/Machine/Frames.lean ====
section
/-! DEFINITION. The bytes of the frames the part sends (R179, R180, spec 10.3): kind, length, payload and a correct check. -/

namespace Sys2Proof.Machine

/-- A signed 16-bit number, two's complement, high byte first (R180). -/
def signed16 (v : Int) : List Byte := bytes16 (BitVec.ofInt 16 v)

/-- The kind byte of a sent frame (R179). -/
def OutFrame.kind : OutFrame → Byte
  | .leds _ _ => 0x05
  | .report _ (.keys _ _) => 0x21
  | .report _ (.rel _ _ _ _ _) => 0x22
  | .report _ (.abs _ _ _ _) => 0x23
  | .wake _ => 0x24
  | .reply _ _ _ _ => 0x25
  | .notice _ _ _ => 0x26

/-- The payload of a sent frame (spec 10.3); the sync mark is the port's own and leaves no trace on the lane. -/
def OutFrame.payload : OutFrame → List Byte
  | .leds _ set => [BitVec.setWidth 8 set]
  | .report _ (.keys mods list) => mods :: list
  | .report _ (.rel dx dy wheel buttons _) =>
    signed16 dx ++ signed16 dy ++ [BitVec.ofInt 8 wheel, BitVec.setWidth 8 buttons]
  | .report _ (.abs ax ay wheel buttons) =>
    beBytes 2 ax ++ beBytes 2 ay ++ [BitVec.ofInt 8 wheel, BitVec.setWidth 8 buttons]
  | .wake _ => []
  | .reply _ tag code data => tag :: code.code :: data
  | .notice _ k subjects => BitVec.ofNat 8 (k.index.val + 1) :: beBytes 2 subjects.toNat

/-- The whole frame as the lane carries it (R179). -/
def OutFrame.bytes (f : OutFrame) : List Byte := sealFrame f.kind f.payload

end Sys2Proof.Machine
end

