-- ==== Sys2Proof/Safety.lean ====
section
/-! DEFINITION. What a sound state of the part is: the standing properties the manual states, in the terms the claims use. -/

namespace Sys2Proof.Machine

/-! ## Tables and layouts in their ranges (R12, R36, R62, R166, R169) -/

/-- The ranges of a TIERS entry (R12). -/
abbrev TierRec.InRange (r : TierRec) : Prop :=
  1 ≤ r.endY ∧ r.endY ≤ 16384 ∧ ∀ s : Slot, 1 ≤ r.slots[s].endX ∧ r.slots[s].endX ≤ 32768

/-- The ranges of a DISPLAYS entry (R12). -/
abbrev DisplayRec.InRange (r : DisplayRec) : Prop :=
  64 ≤ r.width ∧ r.width ≤ 8192 ∧ 64 ≤ r.height ∧ r.height ≤ 8192 ∧ r.shift ≤ 2

/-- The ranges of a WINDOWS entry (R12). -/
abbrev WindowRec.InRange (r : WindowRec) : Prop := r.x ≤ 8191 ∧ r.y ≤ 8191 ∧ 1 ≤ r.shift ∧ r.shift ≤ 3

/-- The ranges of a HEADS entry (R12). -/
abbrev HeadRec.InRange (r : HeadRec) : Prop := r.originX ≤ 32767 ∧ r.originY ≤ 32767

/-- The ranges of a desktop (R12). -/
abbrev DeskSize.InRange (r : DeskSize) : Prop := 1 ≤ r.dw ∧ r.dw ≤ 32767 ∧ 1 ≤ r.dh ∧ r.dh ≤ 32767

/-- Every field of a layout is in its range (R12). -/
abbrev Layout.InRange (L : Layout) : Prop :=
  (∀ i : Tier, L.tiers[i].InRange) ∧ (∀ d : Display, L.displays[d].InRange) ∧ (∀ w : Window, L.windows[w].InRange) ∧
    (∀ h : Head, L.heads[h].InRange) ∧ ∀ t : Target, L.desktops[t].InRange

/-- A trigger names a key number 1..254 or a modifier (R62, R180). -/
def KeyItem.inRange : KeyItem → Bool
  | .key k => 1 ≤ k.toNat && k.toNat ≤ 254
  | .mod _ => true

/-- The ranges of a HOTKEYS entry (R62, R180), with the two further checks of R63: a CHORD is fired by a key, and the argument of FOCUS,
WINDOW_TOGGLE, PRESET and WAKE is 0..7. -/
abbrev HotkeyEntry.InRange (e : HotkeyEntry) : Prop :=
  e.argument ≤ 15 ∧ e.trigger.inRange = true ∧ (e.kind = .chord → e.trigger.isMod = false) ∧
    (e.action = .focus ∨ e.action = .windowToggle ∨ e.action = .preset ∨ e.action = .wake → e.argument ≤ 7)

/-- Every policy-class and live-class field is in its range (R4, R36, R62, R63, R166, R169). -/
abbrev State.TablesInRange (s : State) : Prop :=
  (∀ d : Display, s.budgets[d] ≤ 255) ∧ (∀ t : Target, s.policies[t].wakeRetry ≤ 1) ∧
  (∀ p : Port, 1 ≤ s.consoles[p].gainSlow ∧ s.consoles[p].gainSlow ≤ 64 ∧ 1 ≤ s.consoles[p].gainFast ∧
    s.consoles[p].gainFast ≤ 64 ∧ s.consoles[p].threshold ≤ 1023) ∧
  (∀ n : Fin 24, s.hotkeys[n].InRange) ∧
  s.desk.resistance ≤ 1023 ∧ 100 ≤ s.desk.tapWindow ∧ s.desk.tapWindow ≤ 1000 ∧ 500 ≤ s.desk.leaderTime ∧
  s.desk.leaderTime ≤ 5000 ∧ 1 ≤ s.desk.wakeTimeout ∧ s.desk.wakeTimeout ≤ 60 ∧ 50 ≤ s.desk.stallTime ∧
  s.desk.stallTime ≤ 2000 ∧ s.desk.deskIdle ≤ 240 ∧ 4 ≤ s.desk.coalesce ∧ s.desk.coalesce ≤ 31 ∧
  1 ≤ s.desk.holdFrames ∧ s.desk.holdFrames ≤ 1000 ∧ 1 ≤ s.desk.staleFrames ∧ s.desk.staleFrames ≤ 255

/-- The layout store (R10, R12, R20): the active layout passes every check, both copies are in range, and they are equal while no
hold is open. -/
abbrev State.LayoutSound (s : State) : Prop :=
  s.active.valid = true ∧ s.active.InRange ∧ s.edit.InRange ∧ (s.holdOwner = none → s.edit = s.active)

/-! ## Queues, counts and power states (R27, R109, R113, R145, R153) -/

/-- A console port within its limits (R23, R27): eight FIFO entries, twelve keys in a snapshot and in a C_KEYS entry; its suppressed keys
are listed once each, in ascending order, as the PORT section reports them (10.6). -/
def ConsolePort.Bounded (c : ConsolePort) : Prop :=
  c.fifo.length ≤ Config.fifoDepth ∧ c.snapKeys.length ≤ Config.keyCap ∧ c.supKeys.Pairwise (· < ·) ∧
    ∀ e ∈ c.fifo, ∀ mods list m, e = .keys mods list m → list.length ≤ Config.keyCap

/-- A target port within its limits: queue depths, credits, home steps and retries (R109, R113, R116, R145, R153), one pointer report in
the hold queue (R154), one sync report in the delivery queue and none in the hold queue (R118). -/
abbrev TargetPort.Bounded (p : TargetPort) : Prop :=
  p.queue.length ≤ Config.queueDepth ∧ p.hold.length ≤ Config.holdDepth ∧ p.credit ≤ Config.creditMax ∧
    p.sync.homeLeft ≤ Config.homeStepsMax ∧ p.hold.countP Report.isPointer ≤ 1 ∧ p.queue.countP Report.isSync ≤ 1 ∧
    p.hold.countP Report.isSync = 0 ∧ p.retry ≤ 1

/-- Which states go with which power state: ABSENT exactly while UNATTACHED (R101), reports queued only while ACTIVE (R109) and held only
while WAKING (R153), the wake timer running exactly while WAKING (R145), an inbox frame only while ATTACHED (R104), a sync record CLEARED
or PENDING while not ACTIVE (R104, R117, R147), and CLEARED in ABSOLUTE mode (R116). -/
abbrev TargetPort.PowerSound (p : TargetPort) : Prop :=
  (p.power = .absent ↔ p.attached = false) ∧ (p.queue ≠ [] → p.power = .active) ∧ (p.hold ≠ [] → p.power = .waking) ∧
    (p.wakeTimer.isSome = true ↔ p.power = .waking) ∧ (p.stall.isSome = true → p.queue ≠ []) ∧
    (p.inbox.isSome = true → p.attached = true) ∧
    (p.power ≠ .active → p.sync.phase = .cleared ∨ p.sync.phase = .pending) ∧ (p.mode = .absolute → p.sync.phase = .cleared)

/-- Every console port and target port is within its limits. -/
abbrev State.Bounded (s : State) : Prop := (∀ p : Port, s.ports[p].Bounded) ∧ ∀ t : Target, s.targets[t].Bounded

/-- Power states and queues agree at every target port. -/
abbrev State.PowerSound (s : State) : Prop := ∀ t : Target, s.targets[t].PowerSound

/-- The blocks a STATUS_READ has still to read (R172). -/
def EngineWork.unread : EngineWork → Option (List StatusBlock)
  | .reset _ => none
  | .status left _ => some left

/-- What is left of a STATUS_READ agrees with the frame it answers (R172): the blocks left are the last ones of the section the frame's
selector names, and the first block of it has been read. -/
abbrev EngineWork.Follows (w : EngineWork) (f : ControlFrame) : Prop :=
  ∀ left ∈ w.unread, ∃ blocks ∈ statusBlocks (arg f.args 1), left <:+ blocks ∧ left ≠ blocks

/-- A command being executed in parts (R162, R163, R172, R176, R177, R178): there is none while RESET_N is asserted, and one whose sender has
not been torn down since has its frame, of this command and of a target with control permit, still in the inbox of its ATTACHED sender. -/
abbrev State.ExecutionSound (s : State) : Prop :=
  ∀ e ∈ s.executing, s.resetAsserted = false ∧ ∀ f ∈ e.frame, s.targets[e.sender].attached = true ∧
    s.targets[e.sender].inbox = some f ∧ controlCommand f.command f.args = some e.work.command ∧ s.policies[e.sender].permit = true ∧
    e.work.Follows f

/-! ## Focus and the account of held keys (R39, R41, R50, R51, R79) -/

/-- The focus history (R51): at most four targets, distinct, never the focus target. -/
abbrev State.HistorySound (s : State) : Prop :=
  s.focus.history.length ≤ Config.historyDepth ∧ s.focus.history.Nodup ∧ s.focus.target ∉ s.focus.history

/-- A key-state table (R39): at most twelve entries, no key twice, no empty source set. -/
abbrev KeyState.Sound (ks : KeyState) : Prop :=
  ks.keys.length ≤ Config.keyCap ∧ (ks.keys.map KeyEntry.key).Nodup ∧ ∀ e ∈ ks.keys, e.sources ≠ 0#4

/-- Every key-state table is sound. -/
abbrev State.KeysSound (s : State) : Prop := ∀ t : Target, s.keyStates[t].Sound

/-- The pointer's integer point lies in a screen of the active layout (R79). -/
abbrev State.PointerOnScreen (s : State) : Prop := (s.active.lookup s.pointer.1 s.pointer.2).isSome = true

/-- Unless the focus is detached, the focus target holds the point under the pointer (R50). -/
abbrev State.FocusHoldsPoint (s : State) : Prop :=
  s.focus.detached = true ∨ s.holdsPoint s.focus.target s.pointer.1 s.pointer.2 = true

/-- The item is held down on the console port: present in its snapshot or held button set (R41). -/
def ConsolePort.holding (c : ConsolePort) : Item → Bool
  | .key k => c.snapKeys.contains k
  | .mod m => has c.snapMods m
  | .button b => has c.held b

/-- How often an item of port p is accounted for: in p's suppressed set, and in source sets of targets (R41). -/
def State.accounts (s : State) (p : Port) (i : Item) : Nat :=
  flagNum (s.ports[p].suppressed i) + (List.finRange 8).countP fun t => s.keyStates[t].holds p i

/-- The account is exact (R41): every item held down on a console port is accounted for exactly once, and no other item is. -/
def State.AccountExact (s : State) : Prop :=
  ∀ (p : Port) (i : Item), s.accounts p i = flagNum (s.ports[p].holding i)

/-! ## Shown set, LOCK -/

/-- A window is a member of the shown set only while it is enabled in the active layout (R130). -/
abbrev State.ShownSound (s : State) : Prop := ∀ w : Window, s.windows[w].shown = true → s.active.windows[w].enabled = true

/-- The policy-class fields of two states are equal (R167). -/
abbrev State.SamePolicy (s s' : State) : Prop :=
  s'.policies = s.policies ∧ s'.hotkeys = s.hotkeys ∧ ∀ p : Port, s'.consoles[p].pin = s.consoles[p].pin

/-- Some target has control permit (R166). -/
abbrev State.SomePermit (s : State) : Prop := ∃ t : Target, s.policies[t].permit = true

/-! ## The terms the claims about commands use -/

/-- The merge engine's next port is p: it has an entry, and every port after the one served last and before p has none (R30). -/
abbrev State.MergeTurn (s : State) (p : Port) : Prop :=
  s.ports[p].fifo ≠ [] ∧ ∃ n : Fin 4, p = s.mergeLast + 1 + n ∧ ∀ k : Fin 4, k < n → s.ports[s.mergeLast + 1 + k].fifo = []

/-- The control engine's next frame is f of target t, of command c (`none`: step 2 of R163 refuses it): t's inbox holds it, every inbox
after the target served last and before t is empty, the engine is free, and the part is out of reset with t's lane up
(R163, R178, R104). -/
abbrev State.ControlTurn (s : State) (t : Target) (f : ControlFrame) (c : Option ControlCommand) : Prop :=
  s.resetAsserted = false ∧ s.executing = none ∧ s.targets[t].attached = true ∧ s.targets[t].inbox = some f ∧
    controlCommand f.command f.args = c ∧
    ∃ n : Fin 8, t = s.ctrlLast + 1 + n ∧ ∀ k : Fin 8, k < n → s.targets[s.ctrlLast + 1 + k].inbox = none

/-- The same, with t's control permit set: step 3 of R163 executes the command. -/
abbrev State.Serves (s : State) (t : Target) (f : ControlFrame) (c : ControlCommand) : Prop :=
  s.ControlTurn t f (some c) ∧ s.policies[t].permit = true

/-- What answering a frame does by itself: one T_REPLY on the sender's lane, the inbox empty, the rotation pointer at the sender
(R163, R164). -/
def State.answered (t : Target) (f : ControlFrame) (code : ReplyCode) (data : List Byte) (s : State) : State :=
  { s with
    ctrlLast := t
    targets := upd s.targets t fun p => { p with inbox := none }
    sent := s.sent ++ [.reply t f.tag code data] }

/-- The i-th four-bit item after an offset, two to a byte with the even one low (10.6). -/
def nibbleAt (data : List Byte) (offset i : Nat) : Nat := (data.getD (offset + i / 2) 0).toNat / (if i % 2 = 0 then 1 else 16) % 16

/-- The items of block b, as it stands in s, are those that a section's data carries at their offsets (R172, R180, 10.6). A pointer is
carried in 24 bits. -/
def State.Shows (s : State) (b : StatusBlock) (data : List Byte) : Prop :=
  match b with
  | .controlEngine => data.getD 0 0 = BitVec.ofNat 8 (s.cfgt.val + if s.lockStrap then 128 else 0)
  | .wakeUnit => data.getD 1 0 = if s.deskState = .idle then 1 else 0
  | .layoutStore => data.getD 2 0 = match s.holdOwner with
    | some o => BitVec.ofNat 8 o.val
    | none => 255
  | .focusUnit => data.getD 3 0 = BitVec.ofNat 8 s.focus.target.val ∧
    (data.getD 4 0 = match s.focus.region with
      | .screen d => BitVec.ofNat 8 d.val
      | .window w => BitVec.ofNat 8 (8 + w.val)) ∧
    (data.getD 5 0 = match s.focus.cause with
      | .glide => 0
      | .window => 1
      | .hotkey => 2
      | .control => 3
      | .layout => 4
      | .reset => 5) ∧
    data.getD 6 0 = (if s.focus.lock then 1 else 0) + (if s.focus.detached then 2 else 0) ∧
    data.getD 7 0 = BitVec.ofNat 8 s.focus.history.length ∧
    ∀ i : Fin 4, data.getD (8 + i.val) 0 = match s.focus.history[i.val]? with
      | some u => BitVec.ofNat 8 u.val
      | none => 255
  | .glideUnit => (s.glide.px < 2 ^ 24 → beValue ((data.drop 12).take 3) = s.glide.px) ∧
    (s.glide.py < 2 ^ 24 → beValue ((data.drop 15).take 3) = s.glide.py) ∧
    (s.glide.detached = none → (data.drop 18).take 7 = [0, 0, 0, 0, 0, 0, 0]) ∧
    ∀ x y : Nat, s.glide.detached = some (x, y) → data.getD 18 0 = 1 ∧
      (x < 2 ^ 24 → beValue ((data.drop 19).take 3) = x) ∧ (y < 2 ^ 24 → beValue ((data.drop 22).take 3) = y)
  | .targetPorts => ∀ u : Target, (data.getD (25 + u.val) 0).toNat = (match s.targets[u].power with
      | .absent => 0
      | .active => 1
      | .suspended => 2
      | .waking => 3) + match s.targets[u].mode with
      | .boot => 0
      | .report => 16
      | .absolute => 32
  | .videoHeads => ∀ h : Head, nibbleAt data 33 h.val = match s.heads[h].lock with
    | .noSignal => 0
    | .locking => 1
    | .locked => 2
  | .inputState u =>
    (∀ m : Modifier, nibbleAt data 0 m.val = s.keyStates[u].mods[m].toNat) ∧
    (∀ i : Button, nibbleAt data 4 i.val = s.keyStates[u].buttons[i].toNat) ∧
    beValue ((data.drop 7).take 2) = s.keyStates[u].counter.toNat ∧
    data.drop 12 = s.keyStates[u].keys.flatMap fun e => [e.key, e.sources.setWidth 8, e.seq.extractLsb' 8 8, e.seq.extractLsb' 0 8]
  | .targetPort u => (data.getD 6 0).getLsbD 4 = s.targets[u].resync ∧
    (data.drop 9).take 3 = [BitVec.ofNat 8 s.targets[u].credit, BitVec.ofNat 8 s.targets[u].queue.length,
      BitVec.ofNat 8 s.targets[u].hold.length]
  | .consolePort p => data = [(match s.ports[p].cls with
      | some .keyboard => (0 : Byte)
      | some .pointer => 1
      | some .keypad => 2
      | none => 3) + (if s.ports[p].attached then 128 else 0), s.ports[p].supMods, s.ports[p].supButtons.setWidth 8] ++ s.ports[p].supKeys

/-- The same row taken n times, with nothing between. -/
def execTimes (c : Instr) : Nat → State → Host.Outcome State Fault Refusal
  | 0, s => .next s
  | n + 1, s =>
    match exec c s with
    | .next t => execTimes c n t
    | .fault e => .fault e
    | .refused e => .refused e

/-- Console activity on an AWAKE or IDLE desk (R157): the desk is AWAKE and the idle timer started anew where desk idle is above 0. -/
def State.wakened (s : State) : State :=
  { s with deskState := .awake, idleTimer := if s.desk.deskIdle = 0 then s.idleTimer else some s.desk.deskIdle }

/-- Nothing but target port t differs: every other port of both sorts, and every other field but the record of frames sent and the
notice record. -/
abbrev State.SameButTarget (t : Target) (s s' : State) : Prop :=
  (∀ u : Target, u ≠ t → s'.targets[u] = s.targets[u]) ∧
    s' = { s with targets := s'.targets, sent := s'.sent, notices := s'.notices }

/-- The straps, the tables and the active layout are the same (R165, R176). -/
abbrev State.SameTables (s s' : State) : Prop :=
  s'.cfgt = s.cfgt ∧ s'.lockStrap = s.lockStrap ∧ s'.active = s.active ∧ s'.budgets = s.budgets ∧ s'.policies = s.policies ∧
    s'.consoles = s.consoles ∧ s'.hotkeys = s.hotkeys ∧ s'.presets = s.presets ∧ s'.desk = s.desk

/-- Console ports differ in their suppressed sets only. -/
abbrev State.SamePortsButSuppressed (s s' : State) : Prop :=
  ∀ p : Port, s'.ports[p] = { s.ports[p] with
    supKeys := s'.ports[p].supKeys, supMods := s'.ports[p].supMods, supButtons := s'.ports[p].supButtons }

/-- Target ports differ in queues, timers and sync state only, and by wakes begun (R150). -/
abbrev State.SameTargetSettings (s s' : State) : Prop :=
  ∀ t : Target, s'.targets[t].attached = s.targets[t].attached ∧ s'.targets[t].mode = s.targets[t].mode ∧
    s'.targets[t].credit = s.targets[t].credit ∧ s'.targets[t].leds = s.targets[t].leds ∧ s'.targets[t].inbox = s.targets[t].inbox ∧
    (s'.targets[t].power = s.targets[t].power ∨ s.targets[t].power = .suspended ∧ s'.targets[t].power = .waking)

/-- s' differs from s by no more than a focus change or a region re-evaluation may touch: the focus record, the glide unit, key-state
tables, suppressed sets, target ports, notices, and frames sent (R52, R53, R58, R60). -/
abbrev State.FocusChangeOnly (s s' : State) : Prop :=
  s' = { s with focus := s'.focus, glide := s'.glide, keyStates := s'.keyStates, ports := s'.ports, targets := s'.targets,
                notices := s'.notices, sent := s'.sent } ∧
    s.SamePortsButSuppressed s' ∧ s.SameTargetSettings s'

end Sys2Proof.Machine
end

