-- ==== Sys2Proof/WellFormed.lean ====
section
/-! DEFINITION. Which commands are well formed: the operand ranges the manual states for them. -/

namespace Sys2Proof

/-- The operands lie in the ranges the manual gives: at most twelve keys in a C_KEYS (R24), credit 1..32, LED bits 5–7 zero
(R102), at most 60 argument bytes (R179), and bytes of a BAD_ row that indeed fail a check of R24 or R102. -/
def Instr.wf : Instr → Bool
  | .cKeys _ _ list => Machine.keyListOk list
  | .pCredit _ n => Machine.creditOk n
  | .pLeds _ leds => Machine.ledByteOk leds
  | .pControl _ _ _ args => Machine.controlArgsOk args
  | .badConsoleFrame p bytes => (Machine.consoleCommand p bytes).isNone
  | .badTargetFrame t bytes => (Machine.targetCommand t bytes).isNone
  | .powerOn _ _ | .hardReset | .resetNRelease | .cAttach _ _ | .cMotion _ _ _ _ _ | .cDetach _ | .consoleLaneLoss _
  | .mergeTakeEntry | .tapDeadlineExpiry | .leaderDeadlineExpiry | .pAttach _ _ | .pDetach _ | .targetLaneLoss _
  | .pMode _ _ | .pPower _ _ | .sendReport _ | .stallTimerExpiry _ | .wakeTimerExpiry _ | .idleTimerExpiry
  | .signalArrival _ | .signalLoss _ | .headFrameEnd _ _ _ | .displayFrameStart _ | .tableRead | .tableWrite | .layoutHold
  | .layoutRelease | .layoutAbandon | .focusSet | .wake | .windowShow | .statusRead | .noticeRead | .noticeClear
  | .noticeSubscribe | .deskReset | .badCommand => true

end Sys2Proof
end

