-- ==== Sys2Proof/Certificates/Slice0/Obligations.lean ====
section
/-! DEFINITION. The statements for the provers. -/

open Sys2Proof Sys2Proof.Machine

/-! ## The queue -/

/-- A step takes the front command and executes it with the queue's rest; on an empty queue the block goes on with the command that the
control engine is executing in parts, as a row of that command would, and otherwise idles. The queue, the idling (notes/assumptions/2.md)
and that such a command goes on by itself (notes/assumptions/29.md) are the model's own. -/
def Obligations.StepRunsTheFrontCommand : Prop :=
  (∀ (c : Instr) (s : State), step { s with pending := c :: s.pending } = exec c s) ∧
    (∀ s : State, s.pending = [] → s.executing = none → step s = .next s) ∧
    ∀ (s : State) (e : Execution), s.pending = [] → s.executing = some e →
      (∀ stage : ResetStage, e.work = .reset stage → step s = exec .deskReset s) ∧
      ∀ (left : List StatusBlock) (data : List Byte), e.work = .status left data → step s = exec .statusRead s

/-- No command touches the queue, POWER_ON included; the queue is the model's own (notes/assumptions/2.md). -/
def Obligations.QueueIsNotTouchedByCommands : Prop :=
  ∀ (c : Instr) (s t : State), exec c s = .next t → t.pending = s.pending

/-! ## Resets -/

/-- POWER_ON (R176): the straps are sampled (R165), every table takes its power-on value (R9, R36, R62, R76, R132, R166, R169) and every
block its power-on state (R10, R23, R30, R39, R40, R49, R64, R79, R101, R116, R123, R130, R132, R145, R156, R160, R162, R163, R173). The
model's own choices in it: RESET_N is taken as released (notes/assumptions/7.md), the record of frames sent starts empty
(notes/assumptions/9.md), a console port counts in chord modifier sets (notes/assumptions/26.md), and a CLEARED sync record starts with home
steps 0 and assumed point (0, 0) (notes/assumptions/27.md). -/
def Obligations.PowerOnGivesEveryBlockItsPowerOnState : Prop :=
  ∀ (cfgt : Target) (lock : Bool) (s : State), ∃ t : State, exec (.powerOn cfgt lock) s = .next t ∧
    t.cfgt = cfgt ∧ t.lockStrap = lock ∧ t.pending = s.pending ∧ t.sent = [] ∧ t.resetAsserted = false ∧
    t.active = powerOnLayout ∧ t.edit = powerOnLayout ∧ t.holdOwner = none ∧
    (∀ d : Display, t.budgets[d] = 200) ∧
    (∀ u : Target, t.policies[u] = ⟨.onFocus, 1, true, decide (u = cfgt)⟩) ∧
    (∀ p : Port, t.consoles[p] = ⟨none, 16, 24, 12⟩) ∧
    (∀ n : Fin 8, t.presets[n] = ⟨0, none⟩) ∧ t.desk = ⟨true, 0, 350, 2000, 8, 250, 0, true, 12, 120, 30⟩ ∧
    t.hotkeys[0] = ⟨true, .tap2, 0, false, .mod 4, .leader, 0, false, false⟩ ∧
    (∀ n : Fin 24, 1 ≤ n.val → n.val ≤ 8 →
      t.hotkeys[n] = ⟨true, .follow, 0, false, .key (BitVec.ofNat 8 (29 + n.val)), .focus, n.val - 1, false, false⟩) ∧
    (∀ n : Fin 24, 9 ≤ n.val → t.hotkeys[n] = ⟨false, .chord, 0, false, .key 1, .focusNext, 0, false, false⟩) ∧
    (∀ p : Port, t.ports[p] = ConsolePort.initial) ∧ t.mergeLast = 3 ∧ t.detector = ⟨.idle, none, none, none⟩ ∧
    (∀ u : Target, t.keyStates[u] = KeyState.initial) ∧ t.focus = ⟨0, .screen 0, .reset, false, false, []⟩ ∧
    t.glide.px = 15360 ∧ t.glide.py = 8640 ∧ t.glide.pressure = none ∧ t.glide.detached = none ∧
    (∀ p : Port, t.glide.fractions[p] = (0, 0)) ∧
    (∀ u : Target, t.targets[u] = TargetPort.initial) ∧ t.deskState = .awake ∧ t.idleTimer = none ∧
    (∀ h : Head, t.heads[h] = HeadState.initial) ∧ (∀ d : Display, t.displays[d] = DisplayState.initial) ∧
    (∀ w : Window, t.windows[w] = WindowState.initial) ∧ t.ctrlLast = 7 ∧ t.executing = none ∧ (∀ k : Fin 8, t.notices[k] = 0) ∧ t.subscribers = 0

/-- HARD_RESET (R10, R23, R49, R79, R101, R123, R130, R132, R160, R163, R173, R176): straps, tables and active layout kept, every block
at its hard-reset values, focus at the owner of the first screen with the pointer at its centre. The layout is sound, so that there is a
first screen with an owner (R18). The model's own choices in it: the idle timer is stopped here and started at RESET_N_RELEASE
(notes/assumptions/8.md), the record of frames sent is kept (notes/assumptions/9.md), a console port counts in chord modifier sets
(notes/assumptions/26.md), and a CLEARED sync record has home steps 0 and assumed point (0, 0) (notes/assumptions/27.md). -/
def Obligations.HardResetKeepsTablesAndResetsBlocks : Prop :=
  ∀ s : State, s.LayoutSound → ∃ (t : State) (p : Place) (o : Target), exec .hardReset s = .next t ∧
    s.active.firstScreen = some p ∧ s.active.displayOwner p.display = some o ∧
    s.SameTables t ∧ t.pending = s.pending ∧ t.sent = s.sent ∧ t.resetAsserted = true ∧ t.edit = s.active ∧ t.holdOwner = none ∧
    (∀ q : Port, t.ports[q] = ConsolePort.initial) ∧ t.mergeLast = 3 ∧ t.detector = ⟨.idle, none, none, none⟩ ∧
    (∀ u : Target, t.keyStates[u] = KeyState.initial) ∧ (∀ u : Target, t.targets[u] = TargetPort.initial) ∧
    t.deskState = .awake ∧ t.idleTimer = none ∧ (∀ h : Head, t.heads[h] = HeadState.initial) ∧
    (∀ d : Display, t.displays[d] = DisplayState.initial) ∧ (∀ w : Window, t.windows[w] = WindowState.initial) ∧
    t.ctrlLast = 7 ∧ t.executing = none ∧ (∀ k : Fin 8, t.notices[k] = 0) ∧ t.subscribers = 0 ∧
    t.focus = ⟨o, .screen p.display, .reset, false, false, []⟩ ∧
    t.glide.px = (s.active.screen p).centre.1 * 16 ∧ t.glide.py = (s.active.screen p).centre.2 * 16 ∧
    t.glide.pressure = none ∧ t.glide.detached = none ∧ ∀ q : Port, t.glide.fractions[q] = (0, 0)

/-- RESET_N_RELEASE (R156, R160, R176): the block runs again and the idle timer is started where desk idle is above 0; that the timer
waits for the release is the model's reading (notes/assumptions/8.md). With RESET_N not asserted nothing happens
(notes/assumptions/5.md). -/
def Obligations.ResetReleaseStartsTheIdleTimer : Prop :=
  ∀ s : State,
    (s.resetAsserted = true → 0 < s.desk.deskIdle →
      exec .resetNRelease s = .next { s with resetAsserted := false, idleTimer := some s.desk.deskIdle }) ∧
    (s.resetAsserted = true → s.desk.deskIdle = 0 →
      exec .resetNRelease s = .next { s with resetAsserted := false, idleTimer := none }) ∧
    (s.resetAsserted = false → exec .resetNRelease s = .next s)

/-- While RESET_N stays asserted, a well-formed command other than POWER_ON, HARD_RESET and RESET_N_RELEASE changes nothing
(R176; notes/assumptions/6.md for the heads). -/
def Obligations.NothingHappensWhileResetIsAsserted : Prop :=
  ∀ (c : Instr) (s : State), s.resetAsserted = true → c.wf = true → (∀ cfgt lock, c ≠ .powerOn cfgt lock) → c ≠ .hardReset →
    c ≠ .resetNRelease → exec c s = .next s

/-! ## Console lanes and notices -/

/-- C_ATTACH (R25, R38): attach, or re-attach with the FIFO emptied to one release-all entry; a KEYBOARD port is sent the LED state of the
target it shows. C_DETACH and CONSOLE_LANE_LOSS on an ATTACHED port (R26): the FIFO becomes one release-all entry, the class is kept. -/
def Obligations.ConsoleAttachAndDetachSetThePort : Prop :=
  ∀ (p : Port) (s : State), s.resetAsserted = false →
    (∀ c : PortClass, exec (.cAttach p c) s = .next { s with
      ports := upd s.ports p fun q =>
        { q with attached := true, cls := some c, fifo := if q.attached then [.releaseAll] else q.fifo }
      sent := s.sent ++ (if c = .keyboard then [.leds p s.targets[(s.consoles[p].pin).getD s.focus.target].leds] else []) }) ∧
    (s.ports[p].attached = true →
      let t := { s with ports := upd s.ports p fun q => { q with attached := false, fifo := [.releaseAll] } }
      exec (.cDetach p) s = .next t ∧ exec (.consoleLaneLoss p) s = .next t)

/-- C_KEYS on an ATTACHED port (R27, R29, R35, R157): a real list is appended to a FIFO with room, with the swallowed mark when it finds the
desk IDLE with swallow-wake on; at a full FIFO the newest C_KEYS entry takes the arrival's set and list, its place and its mark kept, and with
no C_KEYS entry CONSOLE_OVERRUN is raised for the port; a ROLLOVER leaves the FIFO. All wake the desk and restart the idle timer. -/
def Obligations.KeysFrameIsAppendedOrOverwritesTheNewest : Prop :=
  ∀ (p : Port) (mods : ModSet) (l : List Key) (s : State), s.resetAsserted = false → s.ports[p].attached = true →
    let mark := decide (s.deskState = .idle) && s.desk.swallowWake
    exec (.cKeys p mods .rollover) s = .next s.wakened ∧
    (l.length ≤ 12 → s.ports[p].fifo.length < 8 →
      exec (.cKeys p mods (.keys l)) s = .next { s.wakened with
        ports := upd s.ports p fun q => { q with fifo := q.fifo ++ [.keys mods l mark] } }) ∧
    (l.length ≤ 12 → s.ports[p].fifo.length = 8 →
      (∀ (mods' : ModSet) (l' : List Key) (mark' : Bool) (pre post : List FifoEntry),
        s.ports[p].fifo = pre ++ .keys mods' l' mark' :: post → (∀ e ∈ post, e.isKeys = false) →
        exec (.cKeys p mods (.keys l)) s = .next { s.wakened with
          ports := upd s.ports p fun q => { q with fifo := pre ++ .keys mods l (mark' || mark) :: post } }) ∧
      ((∀ e ∈ s.ports[p].fifo, e.isKeys = false) →
        exec (.cKeys p mods (.keys l)) s = .next (s.wakened.raise .consoleOverrun (portSubject p))))

/-- C_MOTION on an ATTACHED port (R27, R28, R35, R157, R180): appended where there is room, bits 5–7 of its buttons ignored; at a full FIFO
it merges into the newest C_MOTION entry when the buttons are equal, saturating, and otherwise raises CONSOLE_OVERRUN. -/
def Obligations.MotionFrameAppendsMergesOrOverruns : Prop :=
  ∀ (p : Port) (dx dy : BitVec 16) (wheel buttons : Byte) (s : State), s.resetAsserted = false → s.ports[p].attached = true →
    let mark := decide (s.deskState = .idle) && s.desk.swallowWake
    let b : ButtonSet := buttons.setWidth 5
    (s.ports[p].fifo.length < 8 →
      exec (.cMotion p dx dy wheel buttons) s = .next { s.wakened with
        ports := upd s.ports p fun q => { q with fifo := q.fifo ++ [.motion dx.toInt dy.toInt wheel.toInt b mark] } }) ∧
    (s.ports[p].fifo.length = 8 → ∀ (pre post : List FifoEntry) (dx' dy' wheel' : Int) (b' : ButtonSet) (mark' : Bool),
      s.ports[p].fifo = pre ++ .motion dx' dy' wheel' b' mark' :: post → (∀ e ∈ post, e.isMotion = false) →
      (b' = b →
        exec (.cMotion p dx dy wheel buttons) s = .next { s.wakened with
          ports := upd s.ports p fun q => { q with
            fifo := pre ++ .motion (max (-32768) (min 32767 (dx' + dx.toInt))) (max (-32768) (min 32767 (dy' + dy.toInt)))
              (max (-128) (min 127 (wheel' + wheel.toInt))) b (mark' || mark) :: post } }) ∧
      (b' ≠ b → exec (.cMotion p dx dy wheel buttons) s = .next (s.wakened.raise .consoleOverrun (portSubject p)))) ∧
    (s.ports[p].fifo.length = 8 → (∀ e ∈ s.ports[p].fifo, e.isMotion = false) →
      exec (.cMotion p dx dy wheel buttons) s = .next (s.wakened.raise .consoleOverrun (portSubject p)))

/-- Discarded frames (R24, R102): on an UNATTACHED port a frame of any kind but the attach, and a lane loss (R26, R104), change nothing; a
frame that fails one of steps 1 to 3 raises LANE_ERROR with its port as subject (CP0–CP3 as 0–3, TP0–TP7 as 4–11, R180) and has no other
effect, as do frame rows with a value out of range (notes/assumptions/19.md). -/
def Obligations.UnattachedAndBadFramesAreDiscarded : Prop :=
  ∀ s : State, s.resetAsserted = false →
    (∀ p : Port, s.ports[p].attached = false →
      exec (.cDetach p) s = .next s ∧ exec (.consoleLaneLoss p) s = .next s ∧
      (∀ mods list, (Instr.cKeys p mods list).wf = true → exec (.cKeys p mods list) s = .next s) ∧
      ∀ dx dy wheel buttons, exec (.cMotion p dx dy wheel buttons) s = .next s) ∧
    (∀ t : Target, s.targets[t].attached = false →
      exec (.pDetach t) s = .next s ∧ exec (.targetLaneLoss t) s = .next s ∧ (∀ m, exec (.pMode t m) s = .next s) ∧
      (∀ n, (Instr.pCredit t n).wf = true → exec (.pCredit t n) s = .next s) ∧
      (∀ l, (Instr.pLeds t l).wf = true → exec (.pLeds t l) s = .next s) ∧ (∀ v, exec (.pPower t v) s = .next s) ∧
      ∀ tag c args, (Instr.pControl t tag c args).wf = true → exec (.pControl t tag c args) s = .next s) ∧
    (∀ (p : Port) (bytes : List Byte), consoleCommand p bytes = none →
      exec (.badConsoleFrame p bytes) s = .next (s.raise .laneError ⟨p.val, by omega⟩)) ∧
    (∀ (p : Port) (mods : ModSet) (l : List Key), 12 < l.length →
      exec (.cKeys p mods (.keys l)) s = .next (s.raise .laneError ⟨p.val, by omega⟩)) ∧
    (∀ (t : Target) (bytes : List Byte), targetCommand t bytes = none →
      exec (.badTargetFrame t bytes) s = .next (s.raise .laneError ⟨t.val + 4, by omega⟩)) ∧
    (∀ (t : Target) (n : Byte), n = 0 ∨ 32 < n.toNat →
      exec (.pCredit t n) s = .next (s.raise .laneError ⟨t.val + 4, by omega⟩)) ∧
    (∀ (t : Target) (l : Byte), 32 ≤ l.toNat → exec (.pLeds t l) s = .next (s.raise .laneError ⟨t.val + 4, by omega⟩)) ∧
    ∀ (t : Target) (tag c : Byte) (args : List Byte), 60 < args.length →
      exec (.pControl t tag c args) s = .next (s.raise .laneError ⟨t.val + 4, by omega⟩)

/-- A raise (R173): the subject joins its kind's set, the other kinds' sets stay, and a subject that was not in the set sends one T_NOTICE,
carrying the set after the raise, to each subscribed, permitted and ATTACHED target and to no other; nothing else changes. -/
def Obligations.RaiseSendsOneNoticePerNewSubject : Prop :=
  ∀ (k : NoticeKind) (i : Fin 16) (s : State),
    let t := s.raise k i
    t = { s with notices := t.notices, sent := t.sent } ∧
    (∀ j : Fin 16, has (t.subjects k) j = (decide (j = i) || has (s.subjects k) j)) ∧
    (∀ k' : NoticeKind, k' ≠ k → t.subjects k' = s.subjects k') ∧ t.noticeFlag k = true ∧
    (has (s.subjects k) i = true → t.sent = s.sent) ∧
    (has (s.subjects k) i = false → ∃ us : List Target, us.Nodup ∧ t.sent = s.sent ++ us.map (fun u => .notice u k (t.subjects k)) ∧
      ∀ u : Target, u ∈ us ↔ has s.subscribers u = true ∧ s.policies[u].permit = true ∧ s.targets[u].attached = true)

/-! ## The merge engine, the account and the hotkey detector -/

/-- MERGE_TAKE_ENTRY (R30 to R35): the oldest entry of the first non-empty FIFO after the port served last leaves its FIFO, the rotation
pointer names that port and no other FIFO changes. The entry leaves at its port: a C_KEYS entry its modifier set and cleaned key list,
swallowed or not; a C_MOTION entry its buttons; a release-all entry nothing held and nothing suppressed. A processed snapshot counts in
chord modifier sets from then on (R66, R78; notes/assumptions/26.md). Attach states and classes, the snapshots and held buttons of the
other ports, the tables but for the glide enable of DESK, the layouts, the hold, the heads and displays and the window contents are
unchanged. The next state is also given whole, by the events handed on, with nothing taken between them (notes/assumptions/3.md): of a
C_KEYS entry the releases of modifiers, those of keys, the presses of keys and those of modifiers, in this order, each to the detector
from a following port and to the focus unit from a pinned one (R31, R32; after a CHORD has fired the entry's later modifier presses are
consumed, R67), a swallowed entry's presses into the port's suppressed set (R35); of a C_MOTION entry one pointer event (R33), of a
swallowed one only its button releases (R35); of a release-all entry the release of everything held (R34). With every FIFO empty nothing
is taken (notes/assumptions/5.md). -/
def Obligations.MergeTakesTheOldestEntryOfTheNextPort : Prop :=
  (∀ (s : State) (p : Port) (e : FifoEntry) (rest : List FifoEntry), s.resetAsserted = false → s.MergeTurn p →
    s.ports[p].fifo = e :: rest → ∃ t : State, exec .mergeTakeEntry s = .next t ∧
    t = { s with mergeLast := p, ports := t.ports, detector := t.detector, keyStates := t.keyStates, focus := t.focus,
                 glide := t.glide, targets := t.targets, windows := t.windows, notices := t.notices, sent := t.sent,
                 desk := { s.desk with glideEnable := t.desk.glideEnable } } ∧
    s.SameTargetSettings t ∧ (∀ w : Window, t.windows[w] = { s.windows[w] with shown := t.windows[w].shown }) ∧
    t.ports[p].fifo = rest ∧
    (∀ q : Port, t.ports[q].attached = s.ports[q].attached ∧ t.ports[q].cls = s.ports[q].cls) ∧
    (∀ q : Port, q ≠ p → t.ports[q].fifo = s.ports[q].fifo ∧ t.ports[q].snapMods = s.ports[q].snapMods ∧
      t.ports[q].snapKeys = s.ports[q].snapKeys ∧ t.ports[q].held = s.ports[q].held ∧ t.ports[q].inChord = s.ports[q].inChord) ∧
    match e with
    | .keys mods list _ =>
      t.ports[p].snapMods = mods ∧ t.ports[p].held = s.ports[p].held ∧ t.ports[p].inChord = true ∧ t.ports[p].snapKeys.Nodup ∧
      ∀ k : Key, k ∈ t.ports[p].snapKeys ↔ k ∈ list ∧ k ≠ 0 ∧ k ≠ 255
    | .motion _ _ _ buttons _ =>
      t.ports[p].held = buttons ∧ t.ports[p].snapMods = s.ports[p].snapMods ∧ t.ports[p].snapKeys = s.ports[p].snapKeys ∧
      t.ports[p].inChord = s.ports[p].inChord
    | .releaseAll =>
      t.ports[p].snapMods = 0 ∧ t.ports[p].snapKeys = [] ∧ t.ports[p].held = 0 ∧ t.ports[p].supKeys = [] ∧
      t.ports[p].supMods = 0 ∧ t.ports[p].supButtons = 0 ∧ t.ports[p].inChord = true) ∧
  (∀ (s : State) (p : Port) (e : FifoEntry) (rest : List FifoEntry), s.resetAsserted = false → s.MergeTurn p →
    s.ports[p].fifo = e :: rest →
    let s1 := { s with mergeLast := p, ports := upd s.ports p fun q => { q with fifo := rest } }
    let port := s.ports[p]
    let release := fun (x : State) (i : KeyItem) =>
      match s.consoles[p].pin with
      | some _ => x.keyRelease p i
      | none => x.detectRelease p i
    exec .mergeTakeEntry s = .next (match e with
      | .keys mods list mark =>
        let clean := (list.filter fun k => k != 0 && k != 255).eraseDups
        let keys := clean.filter fun k => !port.snapKeys.contains k
        let mods' := mods &&& ~~~port.snapMods
        let press := fun (a : State × Bool) (i : KeyItem) =>
          match s.consoles[p].pin with
          | some u => (a.1.keyPress p u i, a.2)
          | none =>
            if a.2 && i.isMod then ({ a.1 with ports := upd a.1.ports p (ConsolePort.suppress i.item) }, true)
            else
              let r := a.1.detectPress p i (a.1.chordMods p mods)
              (r.1, a.2 || r.2)
        let s2 := ((members (port.snapMods &&& ~~~mods)).map KeyItem.mod ++
          (port.snapKeys.filter fun k => !clean.contains k).map KeyItem.key).foldl release s1
        let s3 := if mark then { s2 with ports := upd s2.ports p (ConsolePort.suppressAll keys mods' 0) }
          else ((keys.map KeyItem.key ++ (members mods').map KeyItem.mod).foldl press (s2, false)).1
        { s3 with ports := upd s3.ports p fun q => { q with snapMods := mods, snapKeys := clean, inChord := true } }
      | .motion dx dy wheel buttons mark =>
        let up := port.held &&& ~~~buttons
        let down := buttons &&& ~~~port.held
        let s2 := if mark then
            let s2 := { s1 with ports := upd s1.ports p (ConsolePort.suppressAll [] 0 down) }
            if up = 0 then s2 else s2.pointerEvent ⟨p, 0, 0, 0, buttons, up, 0⟩
          else s1.pointerEvent ⟨p, dx, dy, wheel, buttons, up, down⟩
        { s2 with ports := upd s2.ports p fun q => { q with held := buttons } }
      | .releaseAll =>
        let s2 := ((members port.snapMods).map KeyItem.mod ++ port.snapKeys.map KeyItem.key).foldl release s1
        let s3 := if port.held = 0 then s2 else s2.pointerEvent ⟨p, 0, 0, 0, 0, port.held, 0⟩
        { s3 with ports := upd s3.ports p fun q =>
          { q with snapMods := 0, snapKeys := [], held := 0, supKeys := [], supMods := 0, supButtons := 0, inChord := true } })) ∧
  (∀ (c : ConsolePort) (keys : List Key) (mods : ModSet) (buttons : ButtonSet) (i : Item),
    let d := c.suppressAll keys mods buttons
    d = { c with supKeys := d.supKeys, supMods := d.supMods, supButtons := d.supButtons } ∧
    d.suppressed i = (c.suppressed i || match i with
      | .key k => keys.contains k
      | .mod m => has mods m
      | .button b => has buttons b)) ∧
  ∀ s : State, s.resetAsserted = false → (∀ p : Port, s.ports[p].fifo = []) → exec .mergeTakeEntry s = .next s

/-- Input of a pinned port (R32, R81, R100): its entries leave the detector, the focus record, the shown set, the desk pointer, the
detached pointer and the accumulator as they were, and the queues and key-state tables of targets that neither its pin names nor hold
anything of it. Pinned motion (R100): of a pointer event the point in sixteenths is the target's last target point with the port's pinned
fractions and the scaled step (R82, R83), clamped into the target's desktop. Its remainders by 16 are the port's new fractions, of the glide
unit nothing else changes, and its integer point is the point of the target's report (R96, R98), formed after the button changes (R47), with
their button reports to other targets (R43), before it (notes/assumptions/12.md). What each of these does is `ClampedCandidateLiesInTheRectangle`'s and
`AbsoluteReportsScaleTheTargetPoint`'s. -/
def Obligations.PinnedInputTouchesNeitherFocusNorPointer : Prop :=
  (∀ (s : State) (p : Port) (u : Target), s.resetAsserted = false → s.MergeTurn p → s.consoles[p].pin = some u →
    ∃ t : State, exec .mergeTakeEntry s = .next t ∧ t.detector = s.detector ∧ t.focus = s.focus ∧ t.windows = s.windows ∧
      t.glide.px = s.glide.px ∧ t.glide.py = s.glide.py ∧ t.glide.pressure = s.glide.pressure ∧ t.glide.detached = s.glide.detached ∧
      ∀ v : Target, v ≠ u → (∀ i : Item, s.keyStates[v].holds p i = false) →
        t.keyStates[v] = s.keyStates[v] ∧ t.targets[v] = s.targets[v]) ∧
  ∀ (s : State) (e : PointerEvent) (u : Target), s.consoles[e.port].pin = some u →
    let gain := s.gain e.port e.dx e.dy
    let d := s.active.desktops[u]
    let old := s.glide.fractions[e.port]
    let x := min ((d.dw : Int) * 16 - 1) (max 0 ((s.targets[u].lx : Int) * 16 + old.1 + max (-65520) (min 65520 (e.dx * gain))))
    let y := min ((d.dh : Int) * 16 - 1) (max 0 ((s.targets[u].ly : Int) * 16 + old.2 + max (-65520) (min 65520 (e.dy * gain))))
    let t := s.pointerEvent e
    let moved : State := { s with glide := { s.glide with fractions := t.glide.fractions } }
    let booked := moved.accountButtons e (some u)
    t.glide = moved.glide ∧ t.glide.fractions[e.port] = (x.toNat % 16, y.toNat % 16) ∧
    (∀ q : Port, q ≠ e.port → t.glide.fractions[q] = s.glide.fractions[q]) ∧
    t = (State.buttonReports s u booked).pointerReport u (x.toNat / 16, y.toNat / 16) e.wheel
      (booked.buttonSet u != s.buttonSet u) false

/-- A key or modifier press routed to target t (R39, R42, R45): at an ACTIVE or WAKING target a key joins the entry of its key, or is inserted
last with the counter's value, or is refused by a full table of twelve, and a modifier joins its source set, whatever the table holds; at an
ABSENT target, and at a SUSPENDED one whose wake policy is not WAKE_ON_KEY, it is refused; a SUSPENDED target with WAKE_ON_KEY starts its wake
and takes the press. A taken press gives the port that one item and nothing else at any target; a refused press joins the port's suppressed
set, whose other items stay, and leaves every table. A view that the press has changed is then offered in one T_KEYS, and an unchanged view
in none; beyond the wake and that offer nothing else changes. -/
def Obligations.KeyPressIsBookedOrSuppressed : Prop :=
  ∀ (p : Port) (t : Target) (i : KeyItem) (s : State),
    let s' := s.keyPress p t i
    let ks := s.keyStates[t]
    let ks' := s'.keyStates[t]
    let wakes := s.targets[t].power = .suspended ∧ s.policies[t].wakePolicy = .onKey
    let taking := s.targets[t].power = .active ∨ s.targets[t].power = .waking ∨ wakes
    let full : Bool := match i with
      | .key k => !ks.hasKey k && decide (12 ≤ ks.keys.length)
      | .mod _ => false
    let booked := { (if wakes then s.wakeRequest t else s) with keyStates := s'.keyStates, ports := s'.ports }
    (s' = if booked.view t = s.view t then booked else booked.offerReport t (.keys (booked.view t).1 (booked.view t).2)) ∧
    (∀ u : Target, u ≠ t → s'.keyStates[u] = s.keyStates[u]) ∧ (∀ q : Port, q ≠ p → s'.ports[q] = s.ports[q]) ∧
    (taking → full = false → s'.ports = s.ports ∧ ks'.buttons = ks.buttons ∧
      (∀ (q : Port) (j : Item), ks'.holds q j = (decide (q = p ∧ j = i.item) || ks.holds q j)) ∧
      (∀ m : Modifier, i = .mod m → ks' = { ks with mods := ks'.mods }) ∧
      ∀ k : Key, i = .key k → ks'.mods = ks.mods ∧
        (ks.hasKey k = true → ks'.counter = ks.counter ∧ ks'.keys.map KeyEntry.key = ks.keys.map KeyEntry.key ∧
          ks'.keys.map KeyEntry.seq = ks.keys.map KeyEntry.seq) ∧
        (ks.hasKey k = false → ks'.keys = ks.keys ++ [⟨k, single p, ks.counter⟩] ∧ ks'.counter = ks.counter + 1)) ∧
    (¬(taking ∧ full = false) → s'.keyStates = s.keyStates ∧
      s'.ports[p] = { s.ports[p] with supKeys := s'.ports[p].supKeys, supMods := s'.ports[p].supMods } ∧
      ∀ j : Item, s'.ports[p].suppressed j = (decide (j = i.item) || s.ports[p].suppressed j)) ∧
    (¬taking → s'.targets = s.targets) ∧
    (wakes → s'.targets[t].power = .waking ∧ s'.targets[t].wakeTimer = some s.desk.wakeTimeout ∧ s'.targets[t].retry = 0)

/-- A key release (R46): a suppressed item leaves the port's suppressed set, whose other items stay, and nothing else changes; otherwise the
port leaves the item's source set at the target holding it, where every other holding, the order and the sequence numbers of the other
entries, the counter and the buttons stay, as do all console ports and the tables of the other targets. A view that the release changes is
offered in one T_KEYS (R42), and without a change nothing else happens; an item that no target holds leaves the state as it is. The detector
hands every release on to this one, after starting the tap deadline where it is IDLE and the item its candidate of that port (R68). -/
def Obligations.KeyReleaseIsAbsorbedOrTakenAtTheHolder : Prop :=
  ∀ (p : Port) (i : KeyItem) (s : State),
    let r := s.keyRelease p i
    (s.ports[p].suppressed i.item = true →
      r = { s with ports := r.ports } ∧ (∀ q : Port, q ≠ p → r.ports[q] = s.ports[q]) ∧
      r.ports[p] = { s.ports[p] with supKeys := r.ports[p].supKeys, supMods := r.ports[p].supMods } ∧
      ∀ j : Item, r.ports[p].suppressed j = (decide (j ≠ i.item) && s.ports[p].suppressed j)) ∧
    (s.ports[p].suppressed i.item = false → ∀ t : Target, s.holder p i.item = some t →
      let freed := { s with keyStates := r.keyStates }
      let ks := s.keyStates[t]
      (∀ u : Target, u ≠ t → r.keyStates[u] = s.keyStates[u]) ∧
      (∀ (q : Port) (j : Item), r.keyStates[t].holds q j = (decide (¬(q = p ∧ j = i.item)) && ks.holds q j)) ∧
      r.keyStates[t] = { ks with keys := r.keyStates[t].keys, mods := r.keyStates[t].mods } ∧
      (r.keyStates[t].keys.map fun e => (e.key, e.seq)).Sublist (ks.keys.map fun e => (e.key, e.seq)) ∧
      (freed.view t = s.view t → r = freed) ∧
      (freed.view t ≠ s.view t → r = freed.offerReport t (.keys (freed.view t).1 (freed.view t).2))) ∧
    (s.ports[p].suppressed i.item = false → s.holder p i.item = none → r = s) ∧
    s.detectRelease p i = (if s.detector.state = .idle ∧ s.detector.candidate = some (i, p) then
      { s with detector := ⟨.tapWait, some (i, p), some s.desk.tapWindow, none⟩ } else s).keyRelease p i

/-- A CHORD entry that matches a key press in IDLE with PASS clear (R64 to R67): the press is consumed into its port's suppressed set, later
modifier presses of the entry are consumed too (the flag), and the detector is IDLE with candidate NONE unless the action is LEADER. The
chord modifier set of a press from p (R66) holds a modifier exactly when p's entry carries it or another port does whose pin is FOLLOW and
which has had a snapshot processed since (R78; notes/assumptions/26.md). A press that matches no CHORD entry in IDLE is handed to the focus
unit and routed to the focus target, and becomes the candidate where a TAP2 entry has it for trigger (R44, R65); a press that is no second tap
in TAP_WAIT, and one that matches no FOLLOW entry in LEADER, is taken as in IDLE (R69, R71).
The entry a key press matches in IDLE is the first enabled CHORD entry with that trigger whose set is the chord modifier set, with a side-blind
entry's pairs folded (R65, R66); a modifier press matches none. Its trigger modifiers are its set, with the other member of each pair where
it is side-blind (R54, R67). A fired CHORD takes its action and then, with PASS set, the press goes to the focus target the action left, and
otherwise into the suppressed set. The second tap fires the first enabled TAP2 entry and is handed on (R69); a press in LEADER fires the first
enabled FOLLOW entry and is settled by its PASS (R71). The actions are those of R72 to R77: the lock without LOCKED_OK and an ABSENT target
refuse a focus action in silence. That a PRESET on the focus target without a first region re-evaluates with cause WINDOW even where the
shown set stayed is the model's reading (notes/assumptions/24.md). -/
def Obligations.FiredChordConsumesItsTrigger : Prop :=
  (∀ (p : Port) (k : Key) (held : ModSet) (e : HotkeyEntry) (s : State), s.detector.state = .idle →
    s.chordFor (.key k) held = some e → e.pass = false →
    let r := s.detectPress p (.key k) held
    r.1.ports[p].suppressed (.key k) = true ∧ r.2 = true ∧
    (e.action ≠ .leader → r.1.detector = ⟨.idle, none, none, none⟩) ∧
    (e.action = .leader → r.1.detector = ⟨.leader, none, none, some s.desk.leaderTime⟩)) ∧
  (∀ (p : Port) (k : Key) (held : ModSet) (e : HotkeyEntry) (s : State), s.detector.state = .idle →
    s.chordFor (.key k) held = some e →
    let s1 := ({ s with detector := ⟨.idle, none, none, none⟩ } : State).fire e e.triggerMods
    s.detectPress p (.key k) held = (if e.pass then s1.keyPress p s1.focus.target (.key k)
      else { s1 with ports := upd s1.ports p (ConsolePort.suppress (.key k)) }, true)) ∧
  (∀ (s : State) (k : Key) (held : ModSet) (e : HotkeyEntry) (m : Modifier),
    let folded := fun (x : ModSet) => (x ||| x >>> 4) &&& 0x0F
    let matching := fun (h : HotkeyEntry) => h.enabled = true ∧ h.kind = .chord ∧ h.trigger = .key k ∧
      (h.sideBlind = true → folded h.mods = folded held) ∧ (h.sideBlind = false → h.mods = held)
    (s.chordFor (.key k) held = some e ↔
      ∃ n : Fin 24, s.hotkeys[n] = e ∧ matching e ∧ ∀ j : Fin 24, j < n → ¬matching s.hotkeys[j]) ∧
    s.chordFor (.mod m) held = none ∧ has e.triggerMods m = (has e.mods m || e.sideBlind && has e.mods (m + 4))) ∧
  (∀ (e : HotkeyEntry) (trigger : ModSet) (s : State),
    let f := s.focus.target
    let locked := s.focus.lock = true ∧ e.lockedOk = false
    let act := fun (t : Target) => if locked ∨ s.targets[t].power = .absent then s else s.directed t .hotkey trigger
    (e.action = .focus → ∀ t : Target, e.argument = t.val → s.fire e trigger = act t) ∧
    (e.action = .focusNext →
      ((∀ t : Target, t ≠ f → s.targets[t].power = .absent) → s.fire e trigger = s) ∧
      ∀ n : Fin 8, n ≠ 0 → s.targets[f + n].power ≠ .absent → (∀ k : Fin 8, k ≠ 0 → k < n → s.targets[f + k].power = .absent) →
        s.fire e trigger = act (f + n)) ∧
    (e.action = .focusBack → (s.focus.history = [] → s.fire e trigger = s) ∧
      ∀ (t : Target) (rest : List Target), s.focus.history = t :: rest → s.fire e trigger = act t) ∧
    (e.action = .focusLock → s.fire e trigger = { s with focus := { s.focus with lock := !s.focus.lock } }) ∧
    (e.action = .glideToggle → s.fire e trigger = { s with desk := { s.desk with glideEnable := !s.desk.glideEnable } }) ∧
    (e.action = .windowToggle → ∀ w : Window, e.argument = w.val →
      (s.active.windows[w].enabled = false → s.fire e trigger = s) ∧
      (s.active.windows[w].enabled = true → s.fire e trigger =
        State.reevaluate .window trigger { s with windows := upd s.windows w fun r => { r with shown := !r.shown } })) ∧
    (e.action = .preset → ∀ n : Fin 8, e.argument = n.val →
      let pre := s.presets[n]
      let s1 : State := { s with windows := updAll s.windows fun w r =>
        { r with shown := has pre.windows w && s.active.windows[w].enabled } }
      let changed := ∃ w : Window, s1.windows[w].shown ≠ s.windows[w].shown
      let refused := ∀ t : Target, pre.focus = some t → locked ∨ s.targets[t].power = .absent
      (refused → changed → s.fire e trigger = s1.reevaluate .window trigger) ∧ (refused → ¬changed → s.fire e trigger = s) ∧
      ∀ t : Target, pre.focus = some t → ¬refused →
        (t ≠ f ∨ s1.firstRegion t ≠ none → s.fire e trigger = s1.directed t .hotkey trigger) ∧
        (t = f → s1.firstRegion t = none → s.fire e trigger = s1.reevaluate .window trigger)) ∧
    (e.action = .wake → ∀ t : Target, e.argument = t.val →
      (s.targets[t].power ≠ .suspended → s.fire e trigger = s) ∧
      (s.targets[t].power = .suspended → s.targets[t].attached = true → s.fire e trigger = { s with
        sent := s.sent ++ [.wake t]
        targets := upd s.targets t fun p => { p with power := .waking, retry := 0, wakeTimer := some s.desk.wakeTimeout } })) ∧
    (e.action = .leader → s.fire e trigger = { s with detector := ⟨.leader, none, none, some s.desk.leaderTime⟩ })) ∧
  (∀ (s : State) (p : Port) (mods : ModSet) (m : Modifier), has (s.chordMods p mods) m = true ↔
    has mods m = true ∨ ∃ q : Port, q ≠ p ∧ s.consoles[q].pin = none ∧ s.ports[q].inChord = true ∧ has s.ports[q].snapMods m = true) ∧
  ∀ (p : Port) (i : KeyItem) (held : ModSet) (s : State),
    let triggers := fun (k : HotkeyKind) => ∃ n : Fin 24, s.hotkeys[n].enabled = true ∧ s.hotkeys[n].kind = k ∧ s.hotkeys[n].trigger = i
    (s.detector.state = .idle → s.chordFor i held = none →
      (triggers .tap2 → s.detectPress p i held =
        (({ s with detector := ⟨.idle, some (i, p), none, none⟩ } : State).keyPress p s.focus.target i, false)) ∧
      (¬triggers .tap2 → s.detectPress p i held =
        (({ s with detector := ⟨.idle, none, none, none⟩ } : State).keyPress p s.focus.target i, false))) ∧
    let first := fun (k : HotkeyKind) (e : HotkeyEntry) => ∃ n : Fin 24, s.hotkeys[n] = e ∧
      (e.enabled = true ∧ e.kind = k ∧ e.trigger = i) ∧
      ∀ m : Fin 24, m < n → ¬(s.hotkeys[m].enabled = true ∧ s.hotkeys[m].kind = k ∧ s.hotkeys[m].trigger = i)
    let idle : State := { s with detector := ⟨.idle, none, none, none⟩ }
    (∀ e : HotkeyEntry, s.detector.state = .tapWait → s.detector.candidate = some (i, p) → first .tap2 e →
      let s1 := idle.fire e 0
      s.detectPress p i held = (s1.keyPress p s1.focus.target i, false)) ∧
    (∀ e : HotkeyEntry, s.detector.state = .leader → first .follow e →
      let s1 := idle.fire e 0
      s.detectPress p i held = (if e.pass then s1.keyPress p s1.focus.target i
        else { s1 with ports := upd s1.ports p (ConsolePort.suppress i.item) }, false)) ∧
    ((s.detector.state = .tapWait ∧ (s.detector.candidate ≠ some (i, p) ∨ ¬triggers .tap2)) ∨
        (s.detector.state = .leader ∧ ¬triggers .follow) →
      s.detectPress p i held = ({ s with detector := ⟨.idle, none, none, none⟩ } : State).detectPress p i held)

/-- TAP_DEADLINE_EXPIRY and LEADER_DEADLINE_EXPIRY (R70, R71): from TAP_WAIT, and from LEADER, the detector goes to IDLE with candidate
NONE, and nothing else happens; in another state there is no such deadline (notes/assumptions/5.md). -/
def Obligations.DetectorDeadlinesReturnToIdle : Prop :=
  ∀ s : State, s.resetAsserted = false →
    (s.detector.state = .tapWait → exec .tapDeadlineExpiry s = .next { s with detector := ⟨.idle, none, none, none⟩ }) ∧
    (s.detector.state ≠ .tapWait → exec .tapDeadlineExpiry s = .next s) ∧
    (s.detector.state = .leader → exec .leaderDeadlineExpiry s = .next { s with detector := ⟨.idle, none, none, none⟩ }) ∧
    (s.detector.state ≠ .leader → exec .leaderDeadlineExpiry s = .next s)

/-! ## Focus and pointer -/

/-- A focus switch from A to B (R51, R52, R53), step by step. The following ports leave A, where pinned ports keep what they held; A is sent
one T_KEYS if its view changed (R42) and then one button report if its button set did (R43). What a following port held at A joins its
suppressed set, but for a modifier that is no trigger modifier, which is carried to a B that is ACTIVE or WAKING, with one T_KEYS for B if its
view changed. The focus record names B, its cause and region, the history has A at its front and not B; the accumulator is cleared (R87) and an
entry sync of A in progress abandoned (R120); the ATTACHED keyboard ports that follow focus are sent B's LED state (R38); FOCUS_CHANGED is
raised with subject B; and a SUSPENDED B is woken under WAKE_ON_FOCUS. A switch made outside a pointer event ends with B's entry (R97), formed
with wheel 0 from the desk pointer translated for B, or from the detached pointer while focus is detached. The model's own choices in it: an
abandoned record keeps its home steps and assumed point (notes/assumptions/20.md), and the C_LEDS of different lanes are recorded in port order
(notes/assumptions/21.md). -/
def Obligations.FocusSwitchAccountsForEveryHeldItem : Prop :=
  (∀ (s : State) (b : Target) (cause : Cause) (trigger : ModSet) (region : Region), b ≠ s.focus.target →
    let t := s.switchTo b cause trigger region
    s.switch b cause trigger region =
      match if s.focus.detached then s.glide.detached.map fun q => (q.1 / 16, q.2 / 16)
        else t.translate b (s.glide.px / 16) (s.glide.py / 16) with
      | some q => t.pointerReport b q 0 false true
      | none => t) ∧
  ∀ (s : State) (b : Target) (cause : Cause) (trigger : ModSet) (region : Region), b ≠ s.focus.target →
    let a := s.focus.target
    let t := s.switchTo b cause trigger region
    let opens := s.targets[b].power = .active ∨ s.targets[b].power = .waking
    let taken := fun (p : Port) (i : Item) => (s.consoles[p].pin).isNone && s.keyStates[a].holds p i
    let carries := fun (p : Port) (i : Item) => taken p i && decide opens && match i with
      | .mod m => !has trigger m
      | .key _ => false
      | .button _ => false
    let keys := fun (x : State) (v : Target) => Report.keys (x.view v).1 (x.view v).2
    let left : State := { s with keyStates := upd s.keyStates a fun _ => t.keyStates[a] }
    let told := if left.view a = s.view a then left else left.offerReport a (keys left a)
    let released := if left.buttonSet a = s.buttonSet a then told else told.buttonReport a
    let carried : State := { released with ports := t.ports, keyStates := t.keyStates }
    let shown := if carried.view b = s.view b then carried else carried.offerReport b (keys carried b)
    let arrived : State := { shown with
      focus := t.focus
      glide := { s.glide with pressure := none }
      targets := upd shown.targets a fun x =>
        if x.sync.phase = .pending ∨ x.sync.phase = .home ∨ x.sync.phase = .approach then { x with sync := { x.sync with phase := .cleared } }
        else x
      sent := shown.sent ++ ((List.finRange 4).filter fun q => s.ports[q].attached && s.ports[q].cls = some .keyboard &&
        (s.consoles[q].pin).isNone).map (fun q => .leds q s.targets[b].leds) }
    let raised := arrived.raise .focusChanged (eightSubject b)
    (t = if s.policies[b].wakePolicy = .onFocus ∧ s.targets[b].power = .suspended then raised.wakeRequest b else raised) ∧
    t.focus.target = b ∧ t.focus.cause = cause ∧ t.focus.region = region ∧ t.focus.lock = s.focus.lock ∧
    t.focus.detached = s.focus.detached ∧
    t.focus.history = ((a :: s.focus.history.filter (· != a)).filter (· != b)).take 4 ∧
    (∀ (p : Port) (i : Item), t.keyStates[a].holds p i = (s.keyStates[a].holds p i && !taken p i)) ∧
    (t.keyStates[a].keys.map fun e => (e.key, e.seq)).Sublist (s.keyStates[a].keys.map fun e => (e.key, e.seq)) ∧
    t.keyStates[a].counter = s.keyStates[a].counter ∧
    (∀ (p : Port) (i : Item), t.keyStates[b].holds p i = (s.keyStates[b].holds p i || carries p i)) ∧
    t.keyStates[b] = { s.keyStates[b] with mods := t.keyStates[b].mods } ∧
    (∀ (p : Port) (i : Item), t.ports[p].suppressed i = (s.ports[p].suppressed i || (taken p i && !carries p i))) ∧
    s.SamePortsButSuppressed t ∧ (∀ p : Port, s.consoles[p].pin ≠ none → t.ports[p] = s.ports[p]) ∧
    ∀ u : Target, u ≠ a → u ≠ b → t.keyStates[u] = s.keyStates[u] ∧ t.targets[u] = s.targets[u]

/-- The gain of an event (R82): gain slow while |dx| + |dy| is below the threshold, gain fast otherwise. The magnitude is 0..65536 and the
gain 1..64 where the CONSOLES fields are in range; with threshold 0 every event takes gain fast. -/
def Obligations.GainIsChosenByTheMagnitude : Prop :=
  ∀ (s : State) (p : Port) (dx dy : BitVec 16), s.TablesInRange →
    let m := dx.toInt.natAbs + dy.toInt.natAbs
    let g := s.gain p dx.toInt dy.toInt
    m ≤ 65536 ∧ 1 ≤ g ∧ g ≤ 64 ∧ (m < s.consoles[p].threshold → g = s.consoles[p].gainSlow) ∧
    (s.consoles[p].threshold ≤ m → g = s.consoles[p].gainFast) ∧
    (s.consoles[p].threshold = 0 → g = s.consoles[p].gainFast) ∧
    (s.consoles[p].threshold = 1023 → m < 1023 → g = s.consoles[p].gainSlow)

/-- A candidate clamped to a rectangle that is not empty lies in it (R88); an axis within the rectangle keeps integer and fraction, one below
it takes the edge with fraction 0, one at or beyond it the last column or row with fraction 15. The overshoot beyond a rectangle is the largest
distance beyond an edge, the pressed edge that edge, on equal overshoots the x edge (R87). A pointer event of a following port, focus not
detached, settles the pointer from its candidate (R83 to R87): with a following button held, or the lock set on a screen that is not the focus
target's, in the holding rectangle or on a point the focus target holds; otherwise on the candidate in the same screen or another of the focus
target, clamped where it has no screen or its crossing is refused, and across where the five conditions and the pressure allow it, with a
switch to the target of the region landed in (R89). The accumulator is kept, cleared or added to as R87 says; that a step away from the pressed
edge clears it under R84 too is the model's reading (notes/assumptions/14.md). A button press of the event is booked at the target that
receives it, or suppressed in a region that swallows it (R47, R91).
The stages that follow (R81). The region at the settled point is recorded; where its target is not the focus target, a crossing switches with
cause GLIDE (R89), and otherwise the window entry with cause WINDOW is made, unless the focus target holds the point and the lock is set or a
following button held (R90). The held set becomes the event's; a released button leaves the suppressed set, or the source set at the target
holding it; a pressed one joins the source set at its target, which WAKE_ON_KEY wakes, or the suppressed set (R46, R47, R91). Each other target
whose button set changed is sent one button report (R43), before the receiver's report of the point translated for it (R92 to R98), which is
the entry where stage 3 switched (R97); that there is one for each such target, and first, is the model's reading (notes/assumptions/12.md). A
release that leaves no following button held re-evaluates the region with cause WINDOW (R61). With focus detached (R99) the scaled step moves
the detached pointer, clamped into the focus target's desktop, and its integer point is reported; nothing else of the glide unit changes. -/
def Obligations.ClampedCandidateLiesInTheRectangle : Prop :=
  (∀ (r : Rect) (qx qy : Int), r.isEmpty = false →
    let q := r.clampPoint (qx, qy)
    r.contains (q.1 / 16) (q.2 / 16) = true ∧
    (qx / 16 < r.x → q.1 = r.x * 16) ∧ ((r.x : Int) + r.w ≤ qx / 16 → q.1 = (r.x + r.w - 1) * 16 + 15) ∧
    ((r.x : Int) ≤ qx / 16 → qx / 16 < (r.x : Int) + r.w → (q.1 : Int) = qx) ∧
    (qy / 16 < r.y → q.2 = r.y * 16) ∧ ((r.y : Int) + r.h ≤ qy / 16 → q.2 = (r.y + r.h - 1) * 16 + 15) ∧
    ((r.y : Int) ≤ qy / 16 → qy / 16 < (r.y : Int) + r.h → (q.2 : Int) = qy)) ∧
  (∀ (r : Rect) (cx cy : Int), r.isEmpty = false →
    ¬((r.x : Int) ≤ cx ∧ cx < (r.x : Int) + r.w ∧ (r.y : Int) ≤ cy ∧ cy < (r.y : Int) + r.h) →
    let o := r.overshoot cx cy
    let ox := max (r.x - cx) (cx - (r.x + r.w - 1))
    let oy := max (r.y - cy) (cy - (r.y + r.h - 1))
    1 ≤ o.1 ∧ (o.1 : Int) = max ox oy ∧
    match o.2 with
    | .left => (o.1 : Int) = r.x - cx
    | .right => (o.1 : Int) = cx - (r.x + r.w - 1)
    | .top => (o.1 : Int) = r.y - cy ∧ ox < o.1
    | .bottom => (o.1 : Int) = cy - (r.y + r.h - 1) ∧ ox < o.1) ∧
  (∀ (s : State) (e : PointerEvent) (p : Place), s.consoles[e.port].pin = none → s.focus.detached = false →
    s.active.lookup (s.glide.px / 16) (s.glide.py / 16) = some p →
    let gain := s.gain e.port e.dx e.dy
    let sx := max (-65520) (min 65520 (e.dx * gain))
    let sy := max (-65520) (min 65520 (e.dy * gain))
    let q : Int × Int := (s.glide.px + sx, s.glide.py + sy)
    let cx := q.1 / 16
    let cy := q.2 / 16
    let f := s.focus.target
    let screen := s.active.screen p
    let holding := s.holdingRect f p
    let held := ∃ r : Port, s.consoles[r].pin = none ∧ s.ports[r].held ≠ 0
    let own := s.active.displayOwner p.display = some f
    let there := if 0 ≤ cx ∧ cx ≤ 32767 ∧ 0 ≤ cy ∧ cy ≤ 16383 then s.active.lookup cx.toNat cy.toNat else none
    let kept := s.glide.pressure.filter fun pr =>
      match pr.edge with
      | .right => 0 ≤ sx
      | .left => sx ≤ 0
      | .bottom => 0 ≤ sy
      | .top => sy ≤ 0
    let settled := (s.settle sx sy).1
    let reaches := fun (pt : Nat × Nat) (pr : Option Pressure) (crossed : Bool) =>
      s.settle sx sy = ({ s with glide := { s.glide with px := pt.1, py := pt.2, pressure := pr } }, crossed)
    let lands := fun (pt : Nat × Nat) (pr : Option Pressure) => reaches pt pr false
    let at' : Nat × Nat := (q.1.toNat, q.2.toNat)
    let t := s.pointerEvent e
    t.glide.px = settled.glide.px ∧ t.glide.py = settled.glide.py ∧
    (own → holding = screen) ∧
    (∀ w : Window, ¬own → s.windowOfAt f (s.glide.px / 16) (s.glide.py / 16) w = true →
      (∀ v : Window, w < v → s.windowOfAt f (s.glide.px / 16) (s.glide.py / 16) v = false) → s.windowOnDesk w = some holding) ∧
    (held → lands (holding.clampPoint q) kept) ∧
    (¬held → s.focus.lock = true → ¬own →
      (there ≠ none → s.holdsPoint f cx.toNat cy.toNat = true → lands at' kept) ∧
      (there = none ∨ s.holdsPoint f cx.toNat cy.toNat = false → lands (holding.clampPoint q) kept)) ∧
    (¬held → s.focus.lock = false ∨ own →
      (there = none → lands (screen.clampPoint q) kept) ∧
      ∀ p' : Place, there = some p' →
        (p'.display = p.display → lands at' kept) ∧
        (p'.display ≠ p.display → s.active.displayOwner p'.display = some f → lands at' none) ∧
        ∀ o : Target, p'.display ≠ p.display → s.active.displayOwner p'.display = some o → o ≠ f →
          let opens := s.desk.glideEnable = true ∧ s.holdOwner = none ∧ s.focus.lock = false ∧ s.policies[o].glideIn = true ∧
            s.targets[o].power ≠ .absent
          let beyond := screen.overshoot cx cy
          let amount := match kept with
            | some pr => if pr.display = p'.display then min 65535 (pr.amount + beyond.1) else beyond.1
            | none => beyond.1
          (¬opens → lands (screen.clampPoint q) none) ∧
          (opens → amount < s.desk.resistance → lands (screen.clampPoint q) (some ⟨p'.display, amount, beyond.2⟩)) ∧
          (opens → s.desk.resistance ≤ amount → reaches at' none true ∧
            ∀ (region : Region) (r : Target), s.regionAt (at'.1 / 16) (at'.2 / 16) = some region → s.regionTarget region = some r →
              r ≠ f → t.focus.target = r ∧ t.focus.cause = .glide))) ∧
  (∀ (s : State) (e : PointerEvent) (b : Button), has e.presses b = true → has e.buttons b = true →
    let t := s.pointerEvent e
    let books := fun (u : Target) => s.targets[u].power = .active ∨ s.targets[u].power = .waking →
      t.keyStates[u].holds e.port (.button b) = true
    (∀ u : Target, s.consoles[e.port].pin = some u → books u) ∧
    (s.consoles[e.port].pin = none → s.focus.detached = true → books s.focus.target) ∧
    (s.consoles[e.port].pin = none → s.focus.detached = false →
      (s.swallows t.focus.region = false → books t.focus.target) ∧
      (s.swallows t.focus.region = true → t.ports[e.port].suppressed (.button b) = true))) ∧
  (∀ (s : State) (crossed : Bool) (region : Region) (r : Target), s.regionAt (s.glide.px / 16) (s.glide.py / 16) = some region →
    s.regionTarget region = some r →
    let f := s.focus.target
    let recorded : State := { s with focus := { s.focus with region := region } }
    let kept := s.holdsPoint f (s.glide.px / 16) (s.glide.py / 16) = true ∧
      (s.focus.lock = true ∨ ∃ q : Port, s.consoles[q].pin = none ∧ s.ports[q].held ≠ 0)
    (r = f → s.followRegion crossed = recorded) ∧
    (r ≠ f → crossed = true → s.followRegion crossed = recorded.switchTo r .glide 0 region) ∧
    (r ≠ f → crossed = false → kept → s.followRegion crossed = recorded) ∧
    (r ≠ f → crossed = false → ¬kept → s.followRegion crossed = recorded.switchTo r .window 0 region)) ∧
  (∀ (s : State) (e : PointerEvent) (dest : Option Target),
    let p := e.port
    let t := s.accountButtons e dest
    let wakes := fun (v : Target) => s.targets[v].power = .suspended ∧ s.policies[v].wakePolicy = .onKey
    let takes := fun (v : Target) => s.targets[v].power = .active ∨ s.targets[v].power = .waking ∨ wakes v
    let woken := match dest with
      | some v => if e.presses ≠ 0 ∧ wakes v then s.wakeRequest v else s
      | none => s
    t = { woken with ports := t.ports, keyStates := t.keyStates } ∧ (∀ q : Port, q ≠ p → t.ports[q] = s.ports[q]) ∧
    t.ports[p] = { s.ports[p] with held := e.buttons, supButtons := t.ports[p].supButtons } ∧
    (∀ v : Target, t.keyStates[v] = { s.keyStates[v] with buttons := t.keyStates[v].buttons }) ∧
    (∀ (v : Target) (q : Port) (i : Item), q ≠ p → t.keyStates[v].holds q i = s.keyStates[v].holds q i) ∧
    ∀ b : Button,
      let i := Item.button b
      let sup := s.ports[p].suppressed i
      let sup' := t.ports[p].suppressed i
      let same := fun (v : Target) => t.keyStates[v].holds p i = s.keyStates[v].holds p i
      (has e.releases b = false → has e.presses b = false → sup' = sup ∧ ∀ v : Target, same v) ∧
      (has e.releases b = true → has e.presses b = false → sup' = false ∧
        (sup = true → ∀ v : Target, same v) ∧
        (sup = false → s.holder p i = none → ∀ v : Target, same v) ∧
        ∀ u : Target, sup = false → s.holder p i = some u →
          t.keyStates[u].holds p i = false ∧ ∀ v : Target, v ≠ u → same v) ∧
      (has e.releases b = false → has e.presses b = true →
        (dest = none → sup' = true ∧ ∀ v : Target, same v) ∧
        ∀ u : Target, dest = some u →
          (takes u → sup' = sup ∧ t.keyStates[u].holds p i = true ∧ ∀ v : Target, v ≠ u → same v) ∧
          (¬takes u → sup' = true ∧ ∀ v : Target, same v))) ∧
  (∀ (before s : State) (receiver : Target),
    let t := State.buttonReports before receiver s
    let changed := fun (v : Target) => v ≠ receiver ∧ s.buttonSet v ≠ before.buttonSet v
    t = { s with targets := t.targets, notices := t.notices, sent := t.sent } ∧
    (∀ v : Target, t.targets[v] = if changed v then (s.buttonReport v).targets[v] else s.targets[v]) ∧
    (∀ k : NoticeKind, k ≠ .deliveryOverflow → t.subjects k = s.subjects k) ∧
    (∀ j : Fin 16, has (t.subjects .deliveryOverflow) j = true ↔ has (s.subjects .deliveryOverflow) j = true ∨
      ∃ v : Target, changed v ∧ has ((s.buttonReport v).subjects .deliveryOverflow) j = true) ∧
    (t.notices = s.notices → t.sent = s.sent)) ∧
  (∀ (s : State) (region : Region), s.swallows region = true ↔ ∃ w : Window, region = .window w ∧
    (s.active.windows[w].interactive = true →
      ∀ o : Target, s.active.heads[s.active.windows[w].source].owner = some o → s.targets[o].power = .absent)) ∧
  (∀ (s : State) (e : PointerEvent), s.consoles[e.port].pin = none → s.focus.detached = false →
    let gain := s.gain e.port e.dx e.dy
    let settled := s.settle (max (-65520) (min 65520 (e.dx * gain))) (max (-65520) (min 65520 (e.dy * gain)))
    let there := settled.1.followRegion settled.2
    let r := there.focus.target
    let booked := there.accountButtons e (if there.swallows there.focus.region then none else some r)
    let others := State.buttonReports there r booked
    let reported := match there.translate r (there.glide.px / 16) (there.glide.py / 16) with
      | some q => others.pointerReport r q e.wheel (booked.buttonSet r != there.buttonSet r) (r != s.focus.target)
      | none => others
    s.pointerEvent e = if e.releases ≠ 0 ∧ ∀ q : Port, s.consoles[q].pin = none → reported.ports[q].held = 0 then
      reported.reevaluate .window 0 else reported) ∧
  ∀ (s : State) (e : PointerEvent) (px py : Nat), s.consoles[e.port].pin = none → s.focus.detached = true →
    s.glide.detached = some (px, py) →
    let f := s.focus.target
    let gain := s.gain e.port e.dx e.dy
    let d := s.active.desktops[f]
    let x := min ((d.dw : Int) * 16 - 1) (max 0 (px + max (-65520) (min 65520 (e.dx * gain))))
    let y := min ((d.dh : Int) * 16 - 1) (max 0 (py + max (-65520) (min 65520 (e.dy * gain))))
    let moved : State := { s with glide := { s.glide with detached := some (x.toNat, y.toNat) } }
    let booked := moved.accountButtons e (some f)
    let reported := (State.buttonReports s f booked).pointerReport f (x.toNat / 16, y.toNat / 16) e.wheel
      (booked.buttonSet f != s.buttonSet f) false
    let t := s.pointerEvent e
    t.glide = moved.glide ∧ t.focus.target = f ∧ t.focus.detached = true ∧
    t = if e.releases ≠ 0 ∧ ∀ q : Port, s.consoles[q].pin = none → reported.ports[q].held = 0 then
      reported.reevaluate .window 0 else reported

/-- Pointer reports and how they are queued. In ABSOLUTE mode (R94) a report is a T_ABS with each coordinate min(32767, floor(t × 32768 / D)),
the event's wheel and the target's button set, and a button report is formed from the last target point with wheel 0: pixel 0 gives 0, pixel
D − 1 less than 32768, and any pixel at or past D gives 32767. In a relative mode (R95 to R98), with the last target point moved to the point
(R93): of a COMPLETE record the report is the delta from the last target point, each axis clamped to ±L; of a CLEARED one, and of every entry
(R97), it is an entry-sync request (R117), followed by a button report where the event changed the button set; of a sync in progress it is a
zero-motion report, formed only where the event changed the button set or carries a wheel (R98). BOOT carries B1 to B3 and no wheel (R96). That
at a BOOT target a dropped wheel still forms that report is the model's reading (notes/assumptions/18.md); that the record keeps what R117 gives
no value, its assumed point while HOME among it, is the model's choice (notes/assumptions/20.md).
A desk point is translated through the first of the three regions of R92 with the head's effective size: the interactive window on top where
the target owns it, the screen the target owns, the highest window of the target there.
An offer to an ACTIVE target (R109 to R111) merges a pointer report into the newest report at or above the coalesce level where R110 lets it,
is appended below 32 reports, and is else discarded with the resync flag set and DELIVERY_OVERFLOW raised; it ends the port's event
(notes/assumptions/13.md). An offer to a WAKING target (R153, R154) merges a pointer report into the held one, is appended below 16 reports,
and on a full hold queue overwrites the newest T_KEYS or, of a pointer report, is discarded with the resync flag set. To an ABSENT or SUSPENDED
target nothing is offered (R96). -/
def Obligations.AbsoluteReportsScaleTheTargetPoint : Prop :=
  (∀ (s : State) (t : Target) (q : Nat × Nat) (wheel : Int) (changed entry : Bool), s.targets[t].mode = .absolute →
    let d := s.active.desktops[t]
    s.pointerReport t q wheel changed entry =
      (s.setLast t q).offerReport t (.abs (min 32767 (q.1 * 32768 / d.dw)) (min 32767 (q.2 * 32768 / d.dh)) wheel (s.buttonSet t)) ∧
    s.buttonReport t = s.offerReport t (.abs (min 32767 (s.targets[t].lx * 32768 / d.dw)) (min 32767 (s.targets[t].ly * 32768 / d.dh)) 0
      (s.buttonSet t))) ∧
  (∀ v D : Nat, 1 ≤ D → absCoord v D = min 32767 (v * 32768 / D) ∧ absCoord 0 D = 0 ∧ (D - 1) * 32768 / D < 32768 ∧
    (D ≤ v → absCoord v D = 32767)) ∧
  (∀ (s : State) (t : Target) (q : Nat × Nat) (wheel : Int) (changed entry : Bool), s.targets[t].mode ≠ .absolute →
    let p := s.targets[t]
    let boot := p.mode = .boot
    let L : Int := if boot then 127 else 32767
    let d := s.active.desktops[t]
    let b := if boot then s.buttonSet t &&& 7 else s.buttonSet t
    let w := if boot then 0 else wheel
    let moved : State := { s with targets := upd s.targets t fun x => { x with lx := q.1, ly := q.2 } }
    let requested : State := State.portEnd t { moved with targets := upd moved.targets t fun x => { x with sync := match x.power with
      | .active => { x.sync with phase := .home, homeLeft := min 64 (ceilDiv (max d.dw d.dh) L.toNat) }
      | .waking => { x.sync with phase := .pending }
      | .suspended => { x.sync with phase := .pending }
      | .absent => x.sync } }
    (entry = true ∨ p.sync.phase = .cleared → s.pointerReport t q wheel changed entry =
      if changed then requested.offerReport t (.rel 0 0 0 b false) else requested) ∧
    (entry = false → p.sync.phase = .complete → s.pointerReport t q wheel changed entry = moved.offerReport t
      (.rel (max (-L) (min L ((q.1 : Int) - p.lx))) (max (-L) (min L ((q.2 : Int) - p.ly))) w b false)) ∧
    (entry = false → p.sync.phase = .pending ∨ p.sync.phase = .home ∨ p.sync.phase = .approach →
      (changed = true ∨ wheel ≠ 0 → s.pointerReport t q wheel changed entry = moved.offerReport t (.rel 0 0 w b false)) ∧
      (changed = false → wheel = 0 → s.pointerReport t q wheel changed entry = moved)) ∧
    s.buttonReport t = s.offerReport t (.rel 0 0 0 b false)) ∧
  (∀ (s : State) (t : Target) (x y : Nat) (pl : Place), s.active.lookup x y = some pl →
    let mine := fun (w : Window) => s.windowOfAt t x y w = true
    let onTop := ∃ w : Window, s.regionAt x y = some (.window w) ∧ mine w
    let owns := s.active.displayOwner pl.display = some t
    let disp := s.active.displays[pl.display]
    let scr := s.active.screen pl
    let throughWindow := fun (w : Window) => ∀ r : Rect, s.windowOnDesk w = some r →
      let win := s.active.windows[w]
      let g := s.heads[win.source].measured.getD ⟨0, 0⟩
      s.translate t x y = some (s.active.heads[win.source].originX + min ((x - r.x) * 2 ^ win.shift) (g.w - 1),
        s.active.heads[win.source].originY + min ((y - r.y) * 2 ^ win.shift) (g.h - 1))
    (∀ w : Window, s.regionAt x y = some (.window w) → mine w → throughWindow w) ∧
    (¬onTop → owns → ∀ h : Head, disp.base = some h →
      let g := s.heads[h].measured.getD ⟨disp.width * 2 ^ disp.shift, disp.height * 2 ^ disp.shift⟩
      s.translate t x y = some (s.active.heads[h].originX + min ((x - scr.x) * 2 ^ disp.shift) (g.w - 1),
        s.active.heads[h].originY + min ((y - scr.y) * 2 ^ disp.shift) (g.h - 1))) ∧
    (¬onTop → ¬owns → ∀ w : Window, mine w → (∀ v : Window, w < v → ¬mine v) → throughWindow w)) ∧
  (∀ (s : State) (t : Target) (r : Report), s.targets[t].power = .active →
    let p := s.targets[t]
    let n := p.queue.length
    let L := deltaLimit p.mode
    let sum := fun (a b : Int) => if p.mode = .boot then 0 else max (-128) (min 127 (a + b))
    let queued := fun (l : List Report) => State.portEnd t { s with targets := upd s.targets t fun x => { x with queue := l } }
    let merges := fun (old : Report) => match old, r with
      | .rel _ _ _ b false, .rel _ _ _ b' false => b = b'
      | .abs _ _ _ b, .abs _ _ _ b' => b = b'
      | _, _ => False
    (s.desk.coalesce ≤ n → ∀ pre : List Report,
      (∀ (dx dy w dx' dy' w' : Int) (b : ButtonSet), p.queue = pre ++ [.rel dx dy w b false] → r = .rel dx' dy' w' b false →
        s.offerReport t r = queued (pre ++ [.rel (max (-L) (min L (dx + dx'))) (max (-L) (min L (dy + dy'))) (sum w w') b false])) ∧
      ∀ (ax ay ax' ay' : Nat) (w w' : Int) (b : ButtonSet), p.queue = pre ++ [.abs ax ay w b] → r = .abs ax' ay' w' b →
        s.offerReport t r = queued (pre ++ [.abs ax' ay' (sum w w') b])) ∧
    (n < s.desk.coalesce ∨ (∀ old : Report, p.queue.getLast? = some old → ¬merges old) →
      (n < 32 → s.offerReport t r = queued (p.queue ++ [r])) ∧
      (32 ≤ n → s.offerReport t r = State.portEnd t (State.raise .deliveryOverflow (eightSubject t)
        { s with targets := upd s.targets t fun x => { x with resync := true } })))) ∧
  (∀ (s : State) (t : Target) (r : Report), s.targets[t].power = .waking →
    let p := s.targets[t]
    let n := p.hold.length
    let L := deltaLimit p.mode
    let sum := fun (a b : Int) => if p.mode = .boot then 0 else max (-128) (min 127 (a + b))
    let held := fun (l : List Report) => ({ s with targets := upd s.targets t fun x => { x with hold := l } } : State)
    let noneIn := fun (l : List Report) => ∀ e ∈ l, e.isPointer = false
    (∀ pre post : List Report, noneIn pre →
      (∀ (dx dy w dx' dy' w' : Int) (b b' : ButtonSet), p.hold = pre ++ .rel dx dy w b false :: post → r = .rel dx' dy' w' b' false →
        s.offerReport t r =
          held (pre ++ .rel (max (-L) (min L (dx + dx'))) (max (-L) (min L (dy + dy'))) (sum w w') b' false :: post)) ∧
      ∀ (ax ay ax' ay' : Nat) (w w' : Int) (b b' : ButtonSet), p.hold = pre ++ .abs ax ay w b :: post → r = .abs ax' ay' w' b' →
        s.offerReport t r = held (pre ++ .abs ax' ay' (sum w w') b' :: post)) ∧
    (n < 16 → r.isPointer = false ∨ noneIn p.hold → s.offerReport t r = held (p.hold ++ [r])) ∧
    (16 ≤ n → r.isPointer = true → noneIn p.hold →
      s.offerReport t r = { s with targets := upd s.targets t fun x => { x with resync := true } }) ∧
    ∀ (pre post : List Report) (mods : ModSet) (list : List Key), 16 ≤ n → r.isPointer = false → p.hold = pre ++ .keys mods list :: post →
      (∀ e ∈ post, e.isPointer = true) → s.offerReport t r = held (pre ++ r :: post)) ∧
  ∀ (s : State) (t : Target) (r : Report), s.targets[t].power = .absent ∨ s.targets[t].power = .suspended → s.offerReport t r = s

/-! ## Target lanes, wake and desk idle -/

/-- P_ATTACH on an UNATTACHED port (R103): attached, ACTIVE, in the frame's mode, nothing queued, no credit, no resync, the sync record
CLEARED; LED state and last target point are left, and no report, notice or switch is made. On an ATTACHED port (R105) it is a teardown
followed at once by an attach in the frame's mode, even when the mode is the same. That a record set CLEARED keeps its home steps and assumed
point is the model's choice (notes/assumptions/20.md). -/
def Obligations.TargetAttachAndReattachAreTaken : Prop :=
  ∀ (t : Target) (m : Mode) (s : State), s.resetAsserted = false →
    (s.targets[t].attached = false → exec (.pAttach t m) s = .next { s with targets := upd s.targets t fun p =>
      { p with attached := true, power := .active, mode := m, credit := 0, queue := [], resync := false, stall := none,
               sync := { p.sync with phase := .cleared } } }) ∧
    (s.targets[t].attached = true →
      ∃ s1 : State, exec (.pDetach t) s = .next s1 ∧ s1.targets[t].attached = false ∧
        exec (.pAttach t m) s = .next { s1 with targets := upd s1.targets t fun p =>
          { p with attached := true, power := .active, mode := m, credit := 0, queue := [], resync := false, stall := none,
                   sync := { p.sync with phase := .cleared } } })

/-- Teardown (R104) by P_DETACH or lane loss on an ATTACHED port: queues, credit, stall, resync, sync, wake timer and inbox are cleared, the
input state goes into the suppressed sets, a hold of the target is abandoned (R15), the LED state is empty and every keyboard port that
shows the target is sent it; mode and last target point are kept, focus does not move and no notice is raised; a command of the
target being executed goes on without its reply (R164, R178). The model's own choices in it:
a record set CLEARED keeps its home steps and assumed point (notes/assumptions/20.md), and the C_LEDS of different lanes are recorded in port
order (notes/assumptions/21.md). -/
def Obligations.TeardownClearsTheTargetPort : Prop :=
  ∀ (t : Target) (s : State), s.resetAsserted = false → s.targets[t].attached = true →
    ∃ s' : State, exec (.pDetach t) s = .next s' ∧ exec (.targetLaneLoss t) s = .next s' ∧
    s'.targets = upd s.targets t (fun p => { p with
      attached := false, power := .absent, queue := [], hold := [], credit := 0, resync := false, stall := none, leds := 0,
      wakeTimer := none, retry := 0, inbox := none, sync := { p.sync with phase := .cleared } }) ∧
    s'.keyStates = upd s.keyStates t (fun ks => { KeyState.initial with counter := ks.counter }) ∧
    (∀ (p : Port) (i : Item), s'.ports[p].suppressed i = (s.ports[p].suppressed i || s.keyStates[t].holds p i)) ∧
    (∀ p : Port, s'.ports[p] = { s.ports[p] with
      supKeys := s'.ports[p].supKeys, supMods := s'.ports[p].supMods, supButtons := s'.ports[p].supButtons }) ∧
    (s.holdOwner = some t → s'.holdOwner = none ∧ s'.edit = s.active) ∧
    (s.holdOwner ≠ some t → s'.holdOwner = s.holdOwner ∧ s'.edit = s.edit) ∧
    s'.executing = s.executing.map (fun d => if d.sender = t then { d with frame := none } else d) ∧
    s'.sent = s.sent ++ ((List.finRange 4).filter fun p => s.ports[p].attached && s.ports[p].cls = some .keyboard &&
      (s.consoles[p].pin).getD s.focus.target = t).map (fun p => .leds p 0) ∧
    s' = { s with ports := s'.ports, keyStates := s'.keyStates, targets := s'.targets, edit := s'.edit, holdOwner := s'.holdOwner,
                  executing := s'.executing, sent := s'.sent }

/-- P_MODE on an ATTACHED port (R108, R112, R114, R117, R118): at an ACTIVE target the queue holds, after it, the home step of a relative
focus target, the view in the new mode and a pointer report of the present buttons; at a SUSPENDED or WAKING one both queues are empty and
the resync waits, with the sync of a relative focus target PENDING. Attach state, power state, credits, last target point, LED state, inbox,
wake timer and retry count stay. -/
def Obligations.ModeChangeRestatesTheTarget : Prop :=
  ∀ (t : Target) (m : Mode) (s : State), s.resetAsserted = false → s.targets[t].attached = true → s.active.InRange →
    ∃ s' : State, exec (.pMode t m) s = .next s' ∧ s' = { s with targets := s'.targets } ∧
    (∀ u : Target, u ≠ t → s'.targets[u] = s.targets[u]) ∧
    let p := s.targets[t]
    let q := s'.targets[t]
    let d := s.active.desktops[t]
    let keys := Report.keys (s.keyStates[t].view m).1 (s.keyStates[t].view m).2
    let b := s.buttonSet t
    q = { p with mode := m, hold := [], queue := q.queue, resync := q.resync, stall := q.stall, sync := q.sync } ∧
    (p.power = .active → q.resync = false ∧ q.stall = (if p.credit = 0 then some s.desk.stallTime else none) ∧
      (m = .absolute → q.queue = [keys, .abs (absCoord p.lx d.dw) (absCoord p.ly d.dh) 0 b] ∧ q.sync.phase = .cleared) ∧
      (m ≠ .absolute → t ≠ s.focus.target → q.queue = [keys, .rel 0 0 0 (buttonsIn m b) false] ∧ q.sync.phase = .cleared) ∧
      (m ≠ .absolute → t = s.focus.target →
        q.queue = [.rel (-deltaLimit m) (-deltaLimit m) 0 (buttonsIn m b) true, keys, .rel 0 0 0 (buttonsIn m b) false] ∧
        q.sync.phase = .home ∧ q.sync.homeLeft + 1 = min 64 (ceilDiv (max d.dw d.dh) (deltaLimit m).toNat))) ∧
    (p.power ≠ .active → q.queue = [] ∧ q.resync = true ∧ q.stall = none ∧
      q.sync.phase = if t = s.focus.target ∧ m ≠ .absolute ∧ p.power ≠ .absent then .pending else .cleared)

/-- P_CREDIT with n in 1..32 on an ATTACHED port (R113, R114): the count saturates at 32, the stall timer stops, and nothing leaves the
queue. Of the port nothing else changes, but for sync and resync reports that the end of the event may append (R112, R118; none where no sync is
in HOME or APPROACH and the resync flag is clear); every other target port and everything else is unchanged. -/
def Obligations.CreditIsAddedAndStopsTheStallTimer : Prop :=
  ∀ (t : Target) (n : Byte) (s : State), s.resetAsserted = false → s.targets[t].attached = true → 1 ≤ n.toNat → n.toNat ≤ 32 →
    ∃ s' : State, exec (.pCredit t n) s = .next s' ∧ s' = { s with targets := s'.targets } ∧
    (∀ u : Target, u ≠ t → s'.targets[u] = s.targets[u]) ∧
    s'.targets[t].credit = min 32 (s.targets[t].credit + n.toNat) ∧ s'.targets[t].stall = none ∧
    let p := s.targets[t]
    let q := s'.targets[t]
    q = { p with credit := q.credit, stall := none, queue := q.queue, sync := q.sync, resync := q.resync } ∧ p.queue <+: q.queue ∧
    (p.sync.phase ≠ .home → p.sync.phase ≠ .approach → p.resync = false →
      q.queue = p.queue ∧ q.sync = p.sync ∧ q.resync = false)

/-- P_LEDS on an ATTACHED port (R121, R38): the LED state is set, whatever the power state, and each ATTACHED keyboard port that shows the
target (FOLLOW ports when it has focus, ports pinned to it) is sent it. Of the port nothing else changes, but for sync and resync reports that the
end of the event may append, and the stall timer with them (R112, R114, R118; none where no sync is in HOME or APPROACH, the resync flag is
clear, and the timer runs exactly while reports wait without credit); everything else is unchanged. That the C_LEDS of different lanes are recorded in port order is the
model's choice (notes/assumptions/21.md). -/
def Obligations.LedStateIsSetAndShown : Prop :=
  ∀ (t : Target) (l : Byte) (s : State), s.resetAsserted = false → s.targets[t].attached = true → l.toNat < 32 →
    ∃ s' : State, exec (.pLeds t l) s = .next s' ∧ s' = { s with targets := s'.targets, sent := s'.sent } ∧
    (∀ u : Target, u ≠ t → s'.targets[u] = s.targets[u]) ∧ s'.targets[t].leds = l.setWidth 5 ∧
    (let p := s.targets[t]
     let q := s'.targets[t]
     q = { p with leds := q.leds, queue := q.queue, sync := q.sync, resync := q.resync, stall := q.stall } ∧ p.queue <+: q.queue ∧
     (p.sync.phase ≠ .home → p.sync.phase ≠ .approach → p.resync = false → (p.stall.isSome = true → p.queue ≠ []) →
       (p.queue ≠ [] → p.credit = 0 → p.stall.isSome = true) → s'.targets = upd s.targets t fun x => { x with leds := l.setWidth 5 })) ∧
    s'.sent = s.sent ++ ((List.finRange 4).filter fun p => s.ports[p].attached && s.ports[p].cls = some .keyboard &&
      (s.consoles[p].pin).getD s.focus.target = t).map (fun p => .leds p (l.setWidth 5))

/-- P_POWER on an ATTACHED port (R146, R147): ignored where R146 says so; P_POWER SUSPENDED at an ACTIVE target empties its queues, clears
resync, stall and sync record and its input state, and keeps attach state, mode, credits, LEDs, last target point and inbox; console ports
change in their suppressed sets only. P_POWER ACTIVE at a SUSPENDED or WAKING target is `ResumptionMovesTheHoldQueue`. That a record set CLEARED
keeps its home steps and assumed point is the model's choice (notes/assumptions/20.md). -/
def Obligations.PowerFramesSuspendOrAreIgnored : Prop :=
  ∀ (t : Target) (s : State), s.resetAsserted = false → s.targets[t].attached = true →
    (s.targets[t].power = .active → exec (.pPower t .active) s = .next s) ∧
    (s.targets[t].power = .suspended → exec (.pPower t .suspended) s = .next s) ∧
    (s.targets[t].power = .waking → exec (.pPower t .suspended) s = .next s) ∧
    (s.targets[t].power = .active → ∃ s' : State, exec (.pPower t .suspended) s = .next s' ∧
      s'.targets = upd s.targets t (fun p => { p with
        queue := [], hold := [], stall := none, resync := false, power := .suspended,
        sync := { p.sync with phase := .cleared } }) ∧
      s'.keyStates = upd s.keyStates t (fun ks => { KeyState.initial with counter := ks.counter }) ∧
      (∀ (p : Port) (i : Item), s'.ports[p].suppressed i = (s.ports[p].suppressed i || s.keyStates[t].holds p i)) ∧
      s.SamePortsButSuppressed s' ∧ s' = { s with ports := s'.ports, keyStates := s'.keyStates, targets := s'.targets })

/-- P_POWER ACTIVE at a SUSPENDED or WAKING target (R146, R148): ACTIVE, wake timer stopped, retry count 0, the hold queue empty. The delivery
queue is then, in this order, the held reports, the first home step where the record was PENDING (R117, R118), which is HOME now with one step
fewer, and the resync (R112): the present view, unless the newest report is that view, and a pointer report of the present buttons. The resync
flag is clear, and the stall timer runs where no credit is held (R114). The port is sound, so that the reports fit (R148 step 3). -/
def Obligations.ResumptionMovesTheHoldQueue : Prop :=
  ∀ (t : Target) (s : State), s.resetAsserted = false → s.targets[t].attached = true →
    s.targets[t].power = .suspended ∨ s.targets[t].power = .waking → s.targets[t].Bounded → s.targets[t].PowerSound → s.active.InRange →
    ∃ s' : State, exec (.pPower t .active) s = .next s' ∧ s' = { s with targets := s'.targets } ∧
    (∀ u : Target, u ≠ t → s'.targets[u] = s.targets[u]) ∧
    let p := s.targets[t]
    let q := s'.targets[t]
    let d := s.active.desktops[t]
    let b := s.buttonSet t
    let keys := Report.keys (s.view t).1 (s.view t).2
    let still : Report := match p.mode with
      | .absolute => .abs (absCoord p.lx d.dw) (absCoord p.ly d.dh) 0 b
      | m => .rel 0 0 0 (buttonsIn m b) false
    let L := deltaLimit p.mode
    q = { p with power := .active, wakeTimer := none, retry := 0, hold := [], resync := false, queue := q.queue, sync := q.sync,
                 stall := if p.credit = 0 then some s.desk.stallTime else none } ∧
    (p.sync.phase = .cleared → q.sync = p.sync ∧
      q.queue = (if p.hold.getLast? = some keys then p.hold else p.hold ++ [keys]) ++ [still]) ∧
    (p.sync.phase = .pending → q.sync.phase = .home ∧ q.sync.homeLeft + 1 = min 64 (ceilDiv (max d.dw d.dh) L.toNat) ∧
      q.queue = p.hold ++ [.rel (-L) (-L) 0 (buttonsIn p.mode b) true, keys, still])

/-- P_CONTROL on an ATTACHED port (R162): a frame enters an empty inbox; at an occupied one it is answered BUSY at once with its own tag, and
the waiting frame stays. -/
def Obligations.ControlFrameEntersTheInboxOrIsBusy : Prop :=
  ∀ (t : Target) (tag c : Byte) (args : List Byte) (s : State), s.resetAsserted = false → s.targets[t].attached = true →
    args.length ≤ 60 →
    (s.targets[t].inbox = none → exec (.pControl t tag c args) s =
      .next { s with targets := upd s.targets t fun p => { p with inbox := some ⟨tag, c, args⟩ } }) ∧
    (s.targets[t].inbox ≠ none → exec (.pControl t tag c args) s = .next { s with sent := s.sent ++ [.reply t tag .busy []] })

/-- SEND_REPORT (R113): with credit above 0 the head report leaves on the lane, the count falls by one and the rest of the queue keeps its
order; without credit, or with nothing queued, nothing is sent. Mode, LED state, last target point, power state, attach state, inbox, hold
queue, wake timer and retry count stay; the stall timer is stopped on an empty queue and started where the last credit is gone and reports
remain (R114). The end of the event (notes/assumptions/13.md) may append a sync report and resync reports behind the rest, and none where no
sync is in HOME or APPROACH and the resync flag is clear.
That end of an event is given whole: the next home or approach step where one is due (R118, R119: ACTIVE, no sync report queued, a place
free), APPROACH from (0, 0) once the last home step has left, COMPLETE where the assumed point is the last target point; then the resync (R112)
as far as places allow; then the stall timer (R114). That a COMPLETE record keeps the assumed point it has then is the model's choice
(notes/assumptions/20.md). -/
def Obligations.SendTakesTheHeadAndOneCredit : Prop :=
  (∀ (t : Target) (s : State), s.resetAsserted = false →
    (∀ (r : Report) (rest : List Report), s.targets[t].attached = true → s.targets[t].queue = r :: rest → 0 < s.targets[t].credit →
      ∃ s' : State, exec (.sendReport t) s = .next s' ∧ s'.sent = s.sent ++ [.report t r] ∧
        s'.targets[t].credit = s.targets[t].credit - 1 ∧ rest <+: s'.targets[t].queue ∧ s.SameButTarget t s' ∧
        s'.notices = s.notices ∧
        (let p := s.targets[t]
         let q := s'.targets[t]
         q = { p with credit := q.credit, queue := q.queue, sync := q.sync, resync := q.resync, stall := q.stall } ∧
         q.stall = (if q.queue = [] then none else if p.credit = 1 ∧ p.stall = none then some s.desk.stallTime else p.stall) ∧
         (p.sync.phase ≠ .home → p.sync.phase ≠ .approach → p.resync = false →
           q.queue = rest ∧ q.sync = p.sync ∧ q.resync = false))) ∧
    (s.targets[t].credit = 0 → exec (.sendReport t) s = .next s) ∧ (s.targets[t].queue = [] → exec (.sendReport t) s = .next s)) ∧
  ∀ (t : Target) (s : State),
    let p := s.targets[t]
    let d := s.active.desktops[t]
    let L := deltaLimit p.mode
    let b := buttonsIn p.mode (s.buttonSet t)
    let marked := p.queue.any Report.isSync
    let due := p.power = .active ∧ marked = false ∧ p.queue.length < 32
    let approach := fun (mx my : Nat) =>
      let dx := max (-L) (min L ((p.lx : Int) - mx))
      let dy := max (-L) (min L ((p.ly : Int) - my))
      if mx = p.lx ∧ my = p.ly then { p with sync := { p.sync with phase := .complete, mx := mx, my := my } }
      else { p with queue := p.queue ++ [.rel dx dy 0 b true]
                    sync := { p.sync with phase := .approach, mx := (mx + dx).toNat, my := (my + dy).toNat } }
    let synced : TargetPort :=
      if p.sync.phase = .home ∧ 0 < p.sync.homeLeft ∧ due then
        { p with queue := p.queue ++ [.rel (-L) (-L) 0 b true], sync := { p.sync with homeLeft := p.sync.homeLeft - 1 } }
      else if p.sync.phase = .home ∧ p.sync.homeLeft = 0 ∧ due then approach 0 0
      else if p.sync.phase = .home ∧ p.sync.homeLeft = 0 ∧ marked = false then
        { p with sync := { p.sync with phase := .approach, mx := 0, my := 0 } }
      else if p.sync.phase = .approach ∧ due then approach p.sync.mx p.sync.my
      else p
    let keys := Report.keys (s.view t).1 (s.view t).2
    let still : Report := match p.mode with
      | .absolute => .abs (absCoord p.lx d.dw) (absCoord p.ly d.dh) 0 (s.buttonSet t)
      | _ => .rel 0 0 0 b false
    let restated := if synced.queue.getLast? = some keys then synced.queue else synced.queue ++ [keys]
    let resynced : TargetPort :=
      if p.power = .active ∧ p.resync = true ∧ synced.queue.length < 32 then
        if restated.length < 32 then { synced with queue := restated ++ [still], resync := false } else { synced with queue := restated }
      else synced
    s.portEnd t = { s with targets := upd s.targets t fun _ => { resynced with
      stall := if resynced.queue = [] then none else if p.credit = 0 ∧ p.stall = none then some s.desk.stallTime else p.stall } }

/-- STALL_TIMER_EXPIRY of a running timer at an ACTIVE target (R115, R112, R114): the queue holds the resync's two reports only, the sync
record is CLEARED, the timer runs again where no credit is held, and TARGET_STALLED is raised for the target; credits, mode, power state, LED state,
last target point, attach state, inbox and hold queue stay, focus does not move, and beyond the port, the notice and its T_NOTICE nothing
changes. That a record set CLEARED keeps its home steps and assumed point is the model's choice (notes/assumptions/20.md). -/
def Obligations.StallFlushesAndResyncs : Prop :=
  ∀ (t : Target) (v : Nat) (s : State), s.resetAsserted = false → s.targets[t].stall = some v → s.targets[t].power = .active →
    ∃ s' : State, exec (.stallTimerExpiry t) s = .next s' ∧ s.SameButTarget t s' ∧
    (let p := s.targets[t]
     let q := s'.targets[t]
     let d := s.active.desktops[t]
     q.queue = [.keys (s.view t).1 (s.view t).2, match p.mode with
       | .absolute => .abs (absCoord p.lx d.dw) (absCoord p.ly d.dh) 0 (s.buttonSet t)
       | m => .rel 0 0 0 (buttonsIn m (s.buttonSet t)) false] ∧
     q = { p with queue := q.queue, resync := false, sync := { p.sync with phase := .cleared },
                  stall := if p.credit = 0 then some s.desk.stallTime else none }) ∧
    has (s'.subjects .targetStalled) (eightSubject t) = true ∧
    s'.notices = (s.raise .targetStalled (eightSubject t)).notices ∧ s'.sent = (s.raise .targetStalled (eightSubject t)).sent

/-- WAKE_TIMER_EXPIRY at a WAKING target (R151, R152): a retry sends T_WAKE again and starts the timer afresh; otherwise the wake fails, the
hold queue is discarded, the input state goes into the suppressed sets, and WAKE_FAILED is raised for the target; console ports change in
their suppressed sets only, and notices and frames sent are those of the raise (R173). -/
def Obligations.WakeTimerRetriesThenFails : Prop :=
  ∀ (t : Target) (v : Nat) (s : State), s.resetAsserted = false → s.targets[t].attached = true → s.targets[t].power = .waking →
    s.targets[t].wakeTimer = some v →
    (s.targets[t].retry < s.policies[t].wakeRetry → exec (.wakeTimerExpiry t) s = .next { s with
      sent := s.sent ++ [.wake t]
      targets := upd s.targets t fun p => { p with retry := p.retry + 1, wakeTimer := some s.desk.wakeTimeout } }) ∧
    (s.policies[t].wakeRetry ≤ s.targets[t].retry → ∃ s' : State, exec (.wakeTimerExpiry t) s = .next s' ∧
      s'.targets = upd s.targets t (fun p => { p with power := .suspended, wakeTimer := none, retry := 0, hold := [] }) ∧
      s'.keyStates = upd s.keyStates t (fun ks => { KeyState.initial with counter := ks.counter }) ∧
      (∀ (p : Port) (i : Item), s'.ports[p].suppressed i = (s.ports[p].suppressed i || s.keyStates[t].holds p i)) ∧
      s.SamePortsButSuppressed s' ∧ has (s'.subjects .wakeFailed) (eightSubject t) = true ∧
      s'.notices = (s.raise .wakeFailed (eightSubject t)).notices ∧ s'.sent = (s.raise .wakeFailed (eightSubject t)).sent ∧
      s' = { s with ports := s'.ports, keyStates := s'.keyStates, targets := s'.targets, notices := s'.notices, sent := s'.sent })

/-- IDLE_TIMER_EXPIRY of a running timer (R158): with a WAKING target, an open hold or a set notice flag the timer is restarted; otherwise
the desk becomes IDLE and the timer stops. -/
def Obligations.IdleTimerRestsTheDesk : Prop :=
  ∀ (v : Nat) (s : State), s.resetAsserted = false → s.idleTimer = some v →
    ((∃ t : Target, s.targets[t].power = .waking) ∨ s.holdOwner ≠ none ∨ (∃ k : Fin 8, s.notices[k] ≠ 0) →
      exec .idleTimerExpiry s = .next { s with idleTimer := some s.desk.deskIdle }) ∧
    ((∀ t : Target, s.targets[t].power ≠ .waking) → s.holdOwner = none → (∀ k : Fin 8, s.notices[k] = 0) →
      exec .idleTimerExpiry s = .next { s with deskState := .idle, idleTimer := none })

/-! ## Video -/

/-- SIGNAL_ARRIVAL and SIGNAL_LOSS (R124): the table of R124; measured geometry and latest complete frame are kept through the loss, and the
frames since loss are reset only when the head leaves LOCKED. -/
def Obligations.SignalChangesTheLockState : Prop :=
  ∀ (h : Head) (s : State), s.resetAsserted = false →
    let hd := s.heads[h]
    (hd.lock = .noSignal → exec (.signalArrival h) s =
      .next { s with heads := upd s.heads h fun x => { x with lock := .locking, candidate := none } }) ∧
    (hd.lock ≠ .noSignal → exec (.signalArrival h) s = .next s) ∧
    (hd.lock = .noSignal → exec (.signalLoss h) s = .next s) ∧
    (hd.lock = .locking → exec (.signalLoss h) s =
      .next { s with heads := upd s.heads h fun x => { x with lock := .noSignal, candidate := none } }) ∧
    (hd.lock = .locked → exec (.signalLoss h) s =
      .next { s with heads := upd s.heads h fun x => { x with lock := .noSignal, candidate := none, sinceLoss := 0 } })

/-- HEAD_FRAME_END that makes no head lock (R125, R126), of a frame of any size: in LOCKING the candidate is taken or replaced; in LOCKED the
frame is stored, or the head leaves the lock. None of these changes anything but the head. The model's own choices: in NO_SIGNAL no frame is
finished (notes/assumptions/5.md), and what a head measures of a frame outside the 1..32767 of R123 is a free value in that range
(notes/assumptions/11.md); within the range it is the frame's own size. -/
def Obligations.FrameEndMovesTheHead : Prop :=
  ∀ (h : Head) (g : Geometry) (pic : Nat) (s : State), s.resetAsserted = false →
    let hd := s.heads[h]
    let m := measuredGeometry g
    (1 ≤ g.w → g.w ≤ 32767 → 1 ≤ g.h → g.h ≤ 32767 → m = g) ∧ (1 ≤ m.w ∧ m.w ≤ 32767 ∧ 1 ≤ m.h ∧ m.h ≤ 32767) ∧
    (hd.lock = .noSignal → exec (.headFrameEnd h g pic) s = .next s) ∧
    (hd.lock = .locking → hd.candidate ≠ some g → exec (.headFrameEnd h g pic) s = .next { s with
      heads := upd s.heads h fun x => { x with candidate := some g } }) ∧
    (hd.lock = .locked → hd.measured = some m → exec (.headFrameEnd h g pic) s = .next { s with
      heads := upd s.heads h fun x => { x with serial := x.serial + 1, latest := some ⟨g, pic, x.serial + 1⟩ } }) ∧
    (hd.lock = .locked → hd.measured ≠ some m → exec (.headFrameEnd h g pic) s = .next { s with
      heads := upd s.heads h fun x => { x with lock := .locking, candidate := some g, sinceLoss := 0 } })

/-- HEAD_FRAME_END that makes a head lock (R125, R127, R128): the second frame of one geometry is stored with the advanced serial and gives
the measured geometry (of a frame outside the range of R123 a free value: the model's choice, notes/assumptions/11.md); where the measured geometry is not the one
of before, the region is re-evaluated with cause WINDOW (R60, R127); beyond these nothing but the raises of GEOMETRY_MISMATCH changes, which
come after it by the model's reading (notes/assumptions/15.md); each enabled display whose base it is and which its reduced image does not fit
is in that set. -/
def Obligations.SecondEqualFrameLocksTheHead : Prop :=
  ∀ (h : Head) (g : Geometry) (pic : Nat) (s : State), s.resetAsserted = false → s.heads[h].lock = .locking →
    s.heads[h].candidate = some g → ∃ s' : State, exec (.headFrameEnd h g pic) s = .next s' ∧
    let m := measuredGeometry g
    (let s1 := { s with heads := upd s.heads h fun x => { x with
      lock := .locked, candidate := none, measured := some m, serial := x.serial + 1, latest := some ⟨g, pic, x.serial + 1⟩ } }
     let s2 := if s.heads[h].measured = some m then s1 else s1.reevaluate .window 0
     s1.FocusChangeOnly s' ∧ s' = { s2 with notices := s'.notices, sent := s'.sent } ∧ s2.sent <+: s'.sent ∧
     ∀ k : NoticeKind, k ≠ .geometryMismatch → s'.subjects k = s2.subjects k) ∧
    s'.glide.px = s.glide.px ∧ s'.glide.py = s.glide.py ∧
    ∀ d : Display, s.active.displays[d].enabled = true → s.active.displays[d].base = some h →
      s.active.displays[d].width < m.w / 2 ^ s.active.displays[d].shift ∨
        s.active.displays[d].height < m.h / 2 ^ s.active.displays[d].shift →
      has (s'.subjects .geometryMismatch) (displaySubject d) = true

/-- DISPLAY_FRAME_START (R134, R135, R137 to R142): a display that is not enabled, or an IDLE desk, gives BLANK with no picture and nothing else
changes. An enabled display on an AWAKE desk takes the output state of the table of R135, and the frames since loss of a base head that is not
LOCKED advance by one, saturating at 65535. The base cost is 0 without a base, and else the bands of the base head's effective height, shifted and cut to the display
(R136; R127); what the budget leaves of it is the remainder. The candidates are tried in window-number order from the rotation start, wrapping (R137), and each
is settled with its grant (R138 to R140; `GrantsStayWithinTheRemainder`, `CandidateContentAndAgeAreSettled`). The rotation start becomes the first candidate refused, or else the one after the first tried, or
that one where it is alone, or stays. The picture is the size of the display, with the base head's latest frame or fill, and every candidate over
it in window-number order in its rectangle, with the content it has after the frame start. Nothing of the input path changes. -/
def Obligations.DisplayFrameStartChoosesTheOutput : Prop :=
  ∀ (d : Display) (s : State), s.resetAsserted = false →
    (s.active.displays[d].enabled = false ∨ s.deskState = .idle → exec (.displayFrameStart d) s = .next { s with
      displays := upd s.displays d fun x => { x with output := .blank, picture := .blank } }) ∧
    (s.active.displays[d].enabled = true → s.deskState = .awake → ∃ s' : State, exec (.displayFrameStart d) s = .next s' ∧
      s' = { s with heads := s'.heads, displays := s'.displays, windows := s'.windows, notices := s'.notices, sent := s'.sent } ∧
      (∀ e : Display, e ≠ d → s'.displays[e] = s.displays[e]) ∧
      (∀ w : Window, w ∉ s.candidates d → s'.windows[w] = s.windows[w]) ∧
      (s.active.displays[d].base = none → s'.displays[d].output = .fill ∧ s'.heads = s.heads) ∧
      (∀ h : Head, s.active.displays[d].base = some h →
        (∀ k : Head, k ≠ h → s'.heads[k] = s.heads[k]) ∧
        (s.heads[h].lock = .locked → s'.displays[d].output = .live ∧ s'.heads[h] = s.heads[h]) ∧
        (s.heads[h].lock ≠ .locked → s'.heads[h] = { s.heads[h] with sinceLoss := min 65535 (s.heads[h].sinceLoss + 1) } ∧
          (s.heads[h].latest ≠ none → s.heads[h].sinceLoss < s.desk.holdFrames → s'.displays[d].output = .held) ∧
          (s.heads[h].latest = none ∨ s.desk.holdFrames ≤ s.heads[h].sinceLoss → s'.displays[d].output = .fill))) ∧
      (∀ w : Window, w ∈ s.candidates d ↔ s.active.windows[w].display = d ∧ s.active.windows[w].enabled = true ∧
        s.windows[w].shown = true ∧ (s.windowRect w).isEmpty = false) ∧
      s.candidates d = ((List.finRange 8).map fun i => s.displays[d].rotation + i).filter (fun w => decide
        (s.active.windows[w].display = d ∧ s.active.windows[w].enabled = true ∧ s.windows[w].shown = true ∧
          (s.windowRect w).isEmpty = false)) ∧
      (s.active.displays[d].base = none → s.baseCost d = 0) ∧
      (∀ h : Head, s.active.displays[d].base = some h →
        let disp := s.active.displays[d]
        let height := match s.heads[h].measured with
          | some g => g.h
          | none => disp.height * 2 ^ disp.shift
        s.baseCost d = (min (height / 2 ^ disp.shift) disp.height + 15) / 16) ∧
      (let tried := grants (fun w => ceilDiv (s.windowRect w).h 16) (s.budgets[d] - s.baseCost d) (s.candidates d)
       (∀ g ∈ tried, s'.windows[g.1] = (s.settleWindow g).windows[g.1]) ∧
       (∀ g ∈ tried, (s.settleWindow g).windows[g.1].stale = true → s.windows[g.1].stale = false →
          has (s'.subjects .windowStale) (eightSubject g.1) = true) ∧
       (∀ (pre post : List (Window × Bool)) (w : Window), tried = pre ++ (w, false) :: post → (∀ q ∈ pre, q.2 = true) →
          s'.displays[d].rotation = w) ∧
       ((∀ q ∈ tried, q.2 = true) →
          (∀ (a b : Window) (rest : List Window), s.candidates d = a :: b :: rest → s'.displays[d].rotation = b) ∧
          (∀ a : Window, s.candidates d = [a] → s'.displays[d].rotation = a) ∧
          (s.candidates d = [] → s'.displays[d].rotation = s.displays[d].rotation))) ∧
      ∃ (base : Option VideoFrame) (images : List WindowImage),
        let disp := s.active.displays[d]
        s'.displays[d].picture = .drawn disp.width disp.height base disp.shift images ∧
        (s'.displays[d].output = .fill → base = none) ∧
        (∀ h : Head, disp.base = some h → s'.displays[d].output ≠ .fill → base = s.heads[h].latest) ∧
        images.map WindowImage.window = (List.finRange 8).filter (fun w => (s.candidates d).contains w) ∧
        ∀ im ∈ images, im.rect = s.windowRect im.window ∧ im.shift = s.active.windows[im.window].shift ∧
          im.content = s'.windows[im.window].content)

/-- The grants of a frame start (R138): each candidate is tried once, in order, and granted exactly when its cost is at most what the
candidates granted before it have left of the remainder; the total granted never exceeds the remainder. -/
def Obligations.GrantsStayWithinTheRemainder : Prop :=
  ∀ (cost : Window → Nat) (R : Nat) (ws : List Window),
    (grants cost R ws).map Prod.fst = ws ∧
    (((grants cost R ws).filter Prod.snd).map fun q => cost q.1).sum ≤ R ∧
    ∀ (pre post : List (Window × Bool)) (w : Window) (g : Bool), grants cost R ws = pre ++ (w, g) :: post →
      (g = true ↔ cost w + ((pre.filter Prod.snd).map fun q => cost q.1).sum ≤ R)

/-- Content, age and stale flag of a candidate (R139, R140): a granted window takes a frame it does not have, with age 0 and its stale flag
clear; otherwise its content is kept and its age grows by one, saturating at 255. A window turns stale, and WINDOW_STALE is raised for it,
when its age reaches the stale frames with the flag clear. -/
def Obligations.CandidateContentAndAgeAreSettled : Prop :=
  ∀ (s : State) (w : Window) (granted : Bool), 1 ≤ s.desk.staleFrames →
    let latest := s.heads[s.active.windows[w].source].latest
    let r := s.windows[w]
    let t := s.settleWindow (w, granted)
    (∀ v : Window, v ≠ w → t.windows[v] = s.windows[v]) ∧ t.windows[w].shown = r.shown ∧
    (∀ f : VideoFrame, granted = true → latest = some f → r.content.map VideoFrame.serial ≠ some f.serial →
      t.windows[w].content = some f ∧ t.windows[w].age = 0 ∧ t.windows[w].stale = false ∧ t.notices = s.notices) ∧
    (granted = false ∨ latest = none ∨ latest.map VideoFrame.serial = r.content.map VideoFrame.serial →
      t.windows[w].content = r.content ∧ t.windows[w].age = min 255 (r.age + 1) ∧
      (t.windows[w].stale = true ↔ r.stale = true ∨ s.desk.staleFrames ≤ min 255 (r.age + 1)) ∧
      (r.stale = true → t.notices = s.notices) ∧
      (r.stale = false → s.desk.staleFrames ≤ min 255 (r.age + 1) → has (t.subjects .windowStale) (eightSubject w) = true))

/-! ## The control engine -/

/-- Steps 1 and 2 of R163: a sender without control permit is answered NOT_PERMITTED, whatever its frame, and a frame with an unknown
command byte or arguments of the wrong length is answered BAD_COMMAND (R181); nothing else changes. The engine is
free (R163). -/
def Obligations.ControlEngineRefusesWithoutEffect : Prop :=
  (∀ (t : Target) (f : ControlFrame) (c : Instr) (k : Option ControlCommand) (s : State), s.policies[t].permit = false →
    (c, k) ∈ [(Instr.tableRead, some ControlCommand.tableRead), (Instr.tableWrite, some ControlCommand.tableWrite),
      (Instr.layoutHold, some ControlCommand.layoutHold), (Instr.layoutRelease, some ControlCommand.layoutRelease),
      (Instr.layoutAbandon, some ControlCommand.layoutAbandon), (Instr.focusSet, some ControlCommand.focusSet),
      (Instr.wake, some ControlCommand.wake), (Instr.windowShow, some ControlCommand.windowShow),
      (Instr.statusRead, some ControlCommand.statusRead), (Instr.noticeRead, some ControlCommand.noticeRead),
      (Instr.noticeClear, some ControlCommand.noticeClear), (Instr.noticeSubscribe, some ControlCommand.noticeSubscribe),
      (Instr.deskReset, some ControlCommand.deskReset), (Instr.badCommand, none)] →
    s.ControlTurn t f k → exec c s = .next (s.answered t f .notPermitted [])) ∧
  ∀ (t : Target) (f : ControlFrame) (s : State), s.ControlTurn t f none → s.policies[t].permit = true →
    exec .badCommand s = .next (s.answered t f .badCommand [])

/-- TABLE_READ (R13, R168, R181): OK with table, index and the entry's record as the sender sees it; a table above 8 is BAD_VALUE naming
TABLE (F0), an index beyond the table's entries BAD_VALUE naming INDEX (F1). Nothing but the answer changes. -/
def Obligations.TableReadReturnsTheRecord : Prop :=
  ∀ (t : Target) (f : ControlFrame) (table index : Byte) (s : State), s.Serves t f .tableRead → f.args = [table, index] →
    (∀ e : TableEntry, tableEntry table.toNat index.toNat = .ok e →
      exec .tableRead s = .next (s.answered t f .ok (table :: index :: joinFields e.specs (s.fieldsOf t e))) ∧
      (joinFields e.specs (s.fieldsOf t e)).length = recordLength table.toNat) ∧
    (8 < table.toNat → exec .tableRead s = .next (s.answered t f .badValue [0xF0])) ∧
    ∀ n : Nat, (table.toNat, n) ∈ [(0, 3), (1, 6), (2, 8), (3, 12), (4, 8), (5, 4), (6, 24), (7, 8), (8, 1)] →
      (n ≤ index.toNat → exec .tableRead s = .next (s.answered t f .badValue [0xF1])) ∧
      (index.toNat < n → ∃ e : TableEntry, tableEntry table.toNat index.toNat = .ok e)

/-- TABLE_WRITE (R12, R15, R36, R38, R63, R76, R78, R156, R164, R166, R168, R169). A table above 8 is BAD_VALUE naming TABLE, an index
beyond the table's entries BAD_VALUE naming INDEX. Refused: the reply carries the code and number of the first field refused, and nothing but
the answer changes. Accepted: OK; the same sender then reads back the field values it wrote (of a HEADS entry the three layout-class ones),
every other entry reads as before, and the active layout is untouched; a write that clears the hold owner's permit abandons the hold. A changed
pin sends a keyboard port the LED state it shows then, and a pin that becomes FOLLOW keeps the port out of chord modifier sets until its next
processed snapshot (notes/assumptions/26.md). A changed desk idle stops or restarts the idle timer of an AWAKE desk. -/
def Obligations.TableWriteIsRefusedWholeOrReadBack : Prop :=
  ∀ (t : Target) (f : ControlFrame) (table index : Byte) (bytes : List Byte) (s : State),
    s.Serves t f .tableWrite → f.args = table :: index :: bytes →
    (8 < table.toNat → exec .tableWrite s = .next (s.answered t f .badValue [0xF0])) ∧
    (∀ n : Nat, (table.toNat, n) ∈ [(0, 3), (1, 6), (2, 8), (3, 12), (4, 8), (5, 4), (6, 24), (7, 8), (8, 1)] →
      n ≤ index.toNat → exec .tableWrite s = .next (s.answered t f .badValue [0xF1])) ∧
    ∀ e : TableEntry, tableEntry table.toNat index.toNat = .ok e →
    let new := splitFields e.specs bytes
    (∀ (code : ReplyCode) (n : Nat), s.refusal t e new = some (code, n) →
      exec .tableWrite s = .next (s.answered t f code [BitVec.ofNat 8 n]) ∧ 1 ≤ n ∧ n ≤ e.specs.length) ∧
    (s.refusal t e new = none → ∃ s1 : State, exec .tableWrite s = .next (s1.answered t f .ok []) ∧
      s1 = { s with ctrlLast := t, edit := s1.edit, holdOwner := s1.holdOwner, budgets := s1.budgets, policies := s1.policies,
                    consoles := s1.consoles, hotkeys := s1.hotkeys, presets := s1.presets, desk := s1.desk,
                    idleTimer := s1.idleTimer, ports := s1.ports, sent := s1.sent } ∧
      (let ends := ∃ u : Target, e = .targets u ∧ s.holdOwner = some u ∧ fieldAt new 5 = 0
       (ends → s1.holdOwner = none ∧ s1.edit = s.active) ∧
       (¬ends → s1.holdOwner = s.holdOwner ∧ (∀ e' : TableEntry, e' ≠ e → s1.fieldsOf t e' = s.fieldsOf t e') ∧
         s1.fieldsOf t e = match e with
           | .heads _ => new.take 3 ++ (s.fieldsOf t e).drop 3
           | _ => new)) ∧
      (∀ u : Target, e = .targets u → (s1.fieldsOf t e).drop 2 = new.drop 2) ∧
      (∀ p : Port, e = .consoles p →
        let pin := numOpt 8 (fieldAt new 0)
        (pin = s.consoles[p].pin → s1.ports = s.ports ∧ s1.sent = s.sent) ∧
        (pin ≠ s.consoles[p].pin →
          s1.ports = upd s.ports p (fun q => { q with inChord := q.inChord && pin.isSome }) ∧
          s1.sent = s.sent ++ if s.ports[p].attached && s.ports[p].cls = some .keyboard then
            [.leds p s.targets[pin.getD s.focus.target].leds] else [])) ∧
      ((∀ p : Port, e ≠ .consoles p) → s1.ports = s.ports ∧ s1.sent = s.sent) ∧
      (e = .desk → s1.idleTimer =
        if fieldAt new 6 = s.desk.deskIdle ∨ s.deskState = .idle then s.idleTimer
        else if fieldAt new 6 = 0 then none else some (fieldAt new 6)) ∧
      (e ≠ .desk → s1.idleTimer = s.idleTimer))

/-- LAYOUT_HOLD (R11): with no hold open the sender becomes the owner and the edit layout a copy of the active one, OK; the owner is answered
OK with its edits kept; another sender is answered BUSY with no change. -/
def Obligations.LayoutHoldOpensKeepsOrIsBusy : Prop :=
  ∀ (t : Target) (f : ControlFrame) (s : State), s.Serves t f .layoutHold →
    (s.holdOwner = none → exec .layoutHold s = .next ({ s with holdOwner := some t, edit := s.active }.answered t f .ok [])) ∧
    (s.holdOwner = some t → exec .layoutHold s = .next (s.answered t f .ok [])) ∧
    (∀ o : Target, s.holdOwner = some o → o ≠ t → exec .layoutHold s = .next (s.answered t f .busy []))

/-- LAYOUT_ABANDON (R14), whole. -/
def Obligations.LayoutAbandonClosesTheHold : Prop :=
  ∀ (t : Target) (f : ControlFrame) (s : State), s.Serves t f .layoutAbandon →
    (s.holdOwner = some t → exec .layoutAbandon s = .next ({ s with edit := s.active, holdOwner := none }.answered t f .ok [])) ∧
    (s.holdOwner ≠ some t → exec .layoutAbandon s = .next (s.answered t f .notHeld []))

/-- LAYOUT_RELEASE (R16, R20, R21, R22, R59, R128, R130, R143). Refused: NOT_HELD from a sender that holds no layout; LAYOUT_INVALID with the first
failing check's code and index from the owner, the hold staying open and the edit layout kept. Of a layout that passes every check: the edit
layout is in force, the hold closed, OK. Newly enabled windows join the shown set, newly disabled ones leave it; a window that becomes enabled,
or has another source or display than before, starts from no content, and one that the release disables keeps its records even then (the
model's reading, notes/assumptions/23.md). The pointer is re-homed on its display, or to the centre of the new first screen; a detached focus
keeps its target and goes to its first region, or stays detached with its pointer clamped into its desktop, without a switch. The accumulator is
cleared, and the region of a focus that is not detached is then re-evaluated with cause LAYOUT (R22, R60). Beyond these nothing but the raises of
GEOMETRY_MISMATCH changes, which come last by the model's reading (notes/assumptions/15.md); every display that mismatches is in that set. -/
def Obligations.LayoutReleaseIsRefusedOrPutInForce : Prop :=
  ∀ (t : Target) (f : ControlFrame) (s : State), s.Serves t f .layoutRelease →
    (s.holdOwner ≠ some t → exec .layoutRelease s = .next (s.answered t f .notHeld [])) ∧
    (s.holdOwner = some t → ∀ (c : Check) (n : Nat), s.edit.firstFailure = some (c, n) →
      exec .layoutRelease s = .next (s.answered t f .layoutInvalid [BitVec.ofNat 8 c.code, BitVec.ofNat 8 n])) ∧
    (s.holdOwner = some t → s.edit.valid = true →
      ∃ s1 : State, exec .layoutRelease s = .next (s1.answered t f .ok []) ∧
      State.FocusChangeOnly { s with ctrlLast := t, active := s.edit, holdOwner := none, windows := s1.windows } s1 ∧
      s1.glide.pressure = none ∧ s1.focus.lock = s.focus.lock ∧
      (let homed : State := { s with ctrlLast := t, active := s.edit, holdOwner := none, windows := s1.windows,
                                     glide := { s.glide with px := s1.glide.px, py := s1.glide.py, pressure := none } }
       let s2 := if s.focus.detached then
           { homed with glide := { homed.glide with detached := s1.glide.detached }
                        focus := { s.focus with region := s1.focus.region, detached := s1.focus.detached } }
         else homed.reevaluate .layout 0
       s1 = { s2 with notices := s1.notices, sent := s1.sent } ∧ s2.sent <+: s1.sent ∧
       (∀ k : NoticeKind, k ≠ .geometryMismatch → s1.subjects k = s2.subjects k) ∧
       ∀ region : Region, s1.regionAt (s1.glide.px / 16) (s1.glide.py / 16) = some region →
         s.focus.detached = true → s1.focus.region = region) ∧
      (∀ d : Display, s1.mismatches d = true → has (s1.subjects .geometryMismatch) (displaySubject d) = true) ∧
      (∀ w : Window,
        let old := s.active.windows[w]
        let new := s.edit.windows[w]
        let moved := old.source ≠ new.source ∨ old.display ≠ new.display
        (old.enabled = false → new.enabled = true → s1.windows[w] = ⟨true, none, 0, false⟩) ∧
        (old.enabled = true → new.enabled = false → s1.windows[w] = { s.windows[w] with shown := false }) ∧
        (old.enabled = true → new.enabled = true → ¬moved → s1.windows[w] = s.windows[w]) ∧
        (old.enabled = true → new.enabled = true → moved → s1.windows[w] = ⟨s.windows[w].shown, none, 0, false⟩) ∧
        (old.enabled = false → new.enabled = false → ¬moved → s1.windows[w] = { s.windows[w] with shown := false }) ∧
        (old.enabled = false → new.enabled = false → moved → s1.windows[w] = ⟨false, none, 0, false⟩)) ∧
      (s.focus.detached = false ∨ s1.firstRegion s.focus.target = none → ∀ p : Place, s.active.lookup s.pointer.1 s.pointer.2 = some p →
        (∀ p' : Place, s.edit.placeOf p.display = some p' →
          let ux := s.pointer.1 - s.active.left p.tier p.slot
          let uy := s.pointer.2 - s.active.top p.tier
          let d := s.edit.displays[p.display]
          s1.glide.px = s.edit.left p'.tier p'.slot * 16 + (if ux < d.width then ux * 16 + s.glide.px % 16 else (d.width - 1) * 16 + 15) ∧
          s1.glide.py = s.edit.top p'.tier * 16 + (if uy < d.height then uy * 16 + s.glide.py % 16 else (d.height - 1) * 16 + 15)) ∧
        (s.edit.placeOf p.display = none → ∀ q : Place, s.edit.firstScreen = some q →
          s1.glide.px = (s.edit.screen q).centre.1 * 16 ∧ s1.glide.py = (s.edit.screen q).centre.2 * 16)) ∧
      (s.focus.detached = true →
        (∀ q, s1.firstRegion s.focus.target = some q →
          s1.glide.px = q.1 * 16 ∧ s1.glide.py = q.2 * 16 ∧ s1.focus.detached = false ∧ s1.glide.detached = none) ∧
        (s1.firstRegion s.focus.target = none → s1.focus.detached = true ∧
          let size := s.edit.desktops[s.focus.target]
          s1.glide.detached = s.glide.detached.map fun q => (min q.1 (size.dw * 16 - 1), min q.2 (size.dh * 16 - 1)))))

/-- FOCUS_SET (R58, R170): a number above 7 is BAD_VALUE naming argument 1; otherwise the focus target is the one named, whatever the focus
lock, which keeps its value, and a hold, and the reply is OK with the focus target and the detached flag after the change. A target with a
first region has the pointer at it and no detached pointer; one without leaves the pointer, and detaches focus when it was not the focus target,
the detached pointer starting at the centre of its desktop. The change is the switch of R52 and R53 with cause CONTROL and no trigger modifiers,
made from the warped or detached pointer, with the region at the pointer (R58, R60); toward the focus target itself no switch is made (R55). -/
def Obligations.FocusSetDirectsTheFocus : Prop :=
  ∀ (t u : Target) (f : ControlFrame) (b : Byte) (s : State), s.Serves t f .focusSet → f.args = [b] →
    (7 < b.toNat → exec .focusSet s = .next (s.answered t f .badValue [0xE1])) ∧
    (b.toNat = u.val → ∃ s1 : State,
      exec .focusSet s = .next (s1.answered t f .ok [b, if s1.focus.detached then 1 else 0]) ∧
      State.FocusChangeOnly { s with ctrlLast := t } s1 ∧ s1.focus.target = u ∧ s1.focus.lock = s.focus.lock ∧
      (u ≠ s.focus.target → s1.focus.cause = .control ∧ s.focus.target ∈ s1.focus.history ∧
        has (s1.subjects .focusChanged) (eightSubject u) = true) ∧
      (∀ q, s.firstRegion u = some q →
        s1.glide.px = q.1 * 16 ∧ s1.glide.py = q.2 * 16 ∧ s1.focus.detached = false ∧ s1.glide.detached = none ∧
        ∀ region : Region, s.regionAt q.1 q.2 = some region → s1.focus.region = region ∧
          let warped : State := { s with
            ctrlLast := t
            glide := { s.glide with px := q.1 * 16, py := q.2 * 16, detached := none }
            focus := { s.focus with detached := false } }
          (u ≠ s.focus.target → s1 = warped.switch u .control 0 region) ∧
          (u = s.focus.target → s1 = { warped with focus := { warped.focus with region := region } })) ∧
      (s.firstRegion u = none → s1.glide.px = s.glide.px ∧ s1.glide.py = s.glide.py ∧
        (u ≠ s.focus.target → s1.focus.detached = true ∧
          s1.glide.detached = some (s.active.desktops[u].dw / 2 * 16, s.active.desktops[u].dh / 2 * 16) ∧
          ∀ region : Region, s.regionAt (s.glide.px / 16) (s.glide.py / 16) = some region → s1.focus.region = region ∧
            s1 = State.switch u .control 0 region { s with
              ctrlLast := t
              glide := { s.glide with detached := some (s.active.desktops[u].dw / 2 * 16, s.active.desktops[u].dh / 2 * 16) }
              focus := { s.focus with detached := true } }) ∧
        (u = s.focus.target → s1 = { s with ctrlLast := t })))

/-- WAKE (R150, R171): a number above 7 is BAD_VALUE naming argument 1; a SUSPENDED target is sent T_WAKE and becomes WAKING with its timer
started and its retry count 0; in every other state there is no effect; the reply is OK with the power state found (R180: ABSENT 0, ACTIVE
1, SUSPENDED 2, WAKING 3). -/
def Obligations.WakeCommandStartsASuspendedTarget : Prop :=
  ∀ (t u : Target) (f : ControlFrame) (b : Byte) (s : State), s.Serves t f .wake → f.args = [b] →
    (7 < b.toNat → exec .wake s = .next (s.answered t f .badValue [0xE1])) ∧
    (b.toNat = u.val →
      (s.targets[u].power = .suspended → s.targets[u].attached = true → exec .wake s = .next ({ s with
        sent := s.sent ++ [OutFrame.wake u]
        targets := upd s.targets u fun p => { p with power := .waking, retry := 0, wakeTimer := some s.desk.wakeTimeout } }.answered
          t f .ok [2])) ∧
      (s.targets[u].power = .absent → exec .wake s = .next (s.answered t f .ok [0])) ∧
      (s.targets[u].power = .active → exec .wake s = .next (s.answered t f .ok [1])) ∧
      (s.targets[u].power = .waking → exec .wake s = .next (s.answered t f .ok [3])))

/-- WINDOW_SHOW (R131, R171): a window number above 7 and a shown value above 1 are BAD_VALUE naming their argument; a window not enabled in
the active layout is NOT_ENABLED with the shown set unchanged; a membership already held changes nothing; otherwise the membership becomes
the value asked for, no other window's does, and beyond it no more changes than a region re-evaluation may touch. That
re-evaluation is given by the table of R60: the region at the pointer is recorded; while focus is detached, and where the region's target is
the focus target, nothing else happens; where the focus target holds the point, the elective switch is made only with the lock clear and no
following button held; where it does not, the obliged switch is made whatever the lock and the buttons. -/
def Obligations.WindowShowSetsTheMembership : Prop :=
  (∀ (s : State) (cause : Cause) (trigger : ModSet) (region : Region) (r : Target),
    s.regionAt (s.glide.px / 16) (s.glide.py / 16) = some region → s.regionTarget region = some r →
    let f := s.focus.target
    let recorded : State := { s with focus := { s.focus with region := region } }
    let holds := s.holdsPoint f (s.glide.px / 16) (s.glide.py / 16) = true
    let held := ∃ q : Port, s.consoles[q].pin = none ∧ s.ports[q].held ≠ 0
    (s.focus.detached = true ∨ r = f → s.reevaluate cause trigger = recorded) ∧
    (s.focus.detached = false → r ≠ f → holds → s.focus.lock = true ∨ held → s.reevaluate cause trigger = recorded) ∧
    (s.focus.detached = false → r ≠ f → holds → s.focus.lock = false → ¬held →
      s.reevaluate cause trigger = recorded.switch r cause trigger region) ∧
    (s.focus.detached = false → r ≠ f → ¬holds → s.reevaluate cause trigger = recorded.switch r cause trigger region)) ∧
  ∀ (t : Target) (w : Window) (f : ControlFrame) (a b : Byte) (s : State), s.Serves t f .windowShow → f.args = [a, b] →
    (7 < a.toNat → exec .windowShow s = .next (s.answered t f .badValue [0xE1])) ∧
    (a.toNat ≤ 7 → 1 < b.toNat → exec .windowShow s = .next (s.answered t f .badValue [0xE2])) ∧
    (a.toNat = w.val → b.toNat ≤ 1 →
      (s.active.windows[w].enabled = false → exec .windowShow s = .next (s.answered t f .notEnabled [])) ∧
      (s.active.windows[w].enabled = true → s.windows[w].shown = decide (b = 1) → exec .windowShow s = .next (s.answered t f .ok [b])) ∧
      (s.active.windows[w].enabled = true → s.windows[w].shown ≠ decide (b = 1) → ∃ s1 : State,
        exec .windowShow s = .next (s1.answered t f .ok [b]) ∧
        (let shown : State := { s with ctrlLast := t, windows := upd s.windows w fun r => { r with shown := decide (b = 1) } }
         s1 = shown.reevaluate .window 0 ∧ shown.FocusChangeOnly s1) ∧
        s1.glide.px = s.glide.px ∧ s1.glide.py = s.glide.py))

/-- STATUS_READ (R172, R180, R181, 10.6), read by read. The frame taken begins it with the first block of its section, and a selector of no
section is BAD_VALUE naming argument 1. Each further row reads the next block's items as one event, under the state it finds, so that rows of
lanes, timers and frame starts may stand between. After the last block the reply is OK with the section, unless the sender was torn down
meanwhile. Whatever came between, every item is that of its own block at the read there (`State.Shows`), and the data has the length of
10.6: GENERAL 39 bytes; a TARGET section 12 and four for each key entry; a PORT section 3 and one for each suppressed key. Meanwhile no other
control command is executed (R163). With nothing between, the section is that of one state, and nothing but the answer changes. The model's
own choices: that a row stands for the read at one block, and one more row for the reply (notes/assumptions/29.md), and the order of the
blocks, that of the items in 10.6 (notes/assumptions/31.md). -/
def Obligations.StatusReadReportsAndChangesNothing : Prop :=
  let general := [StatusBlock.controlEngine, .wakeUnit, .layoutStore, .focusUnit, .glideUnit, .targetPorts, .videoHeads]
  let covers := fun (b : Byte) (blocks : List StatusBlock) => (b = 0 ∧ blocks = general) ∨
    (∃ u : Target, b.toNat = 0x10 + u.val ∧ blocks = [.inputState u, .targetPort u]) ∨
    ∃ p : Port, b.toNat = 0x20 + p.val ∧ blocks = [.consolePort p]
  (∀ (t : Target) (f : ControlFrame) (b : Byte) (s : State), s.Serves t f .statusRead → f.args = [b] →
    (∀ (first : StatusBlock) (left : List StatusBlock), covers b (first :: left) →
      exec .statusRead s = .next { s with ctrlLast := t, executing := some ⟨t, some f, .status left (s.readBlock first [])⟩ }) ∧
    (∀ blocks : List StatusBlock, covers b blocks → ∃ data : List Byte,
      execTimes .statusRead (blocks.length + 1) s = .next (s.answered t f .ok data) ∧ ∀ k ∈ blocks, s.Shows k data) ∧
    (b ≠ 0 → b.toNat < 0x10 ∨ (0x18 ≤ b.toNat ∧ b.toNat < 0x20) ∨ 0x24 ≤ b.toNat →
      exec .statusRead s = .next (s.answered t f .badValue [0xE1]))) ∧
  (∀ (u : Target) (sought : Option ControlFrame) (data : List Byte) (s : State), s.resetAsserted = false →
    (∀ (k : StatusBlock) (left : List StatusBlock), s.executing = some ⟨u, sought, .status (k :: left) data⟩ →
      exec .statusRead s = .next { s with executing := some ⟨u, sought, .status left (s.readBlock k data)⟩ }) ∧
    (s.executing = some ⟨u, sought, .status [] data⟩ →
      (sought = none → exec .statusRead s = .next { s with executing := none }) ∧
      ∀ f : ControlFrame, sought = some f → s.targets[u].attached = true → exec .statusRead s = .next { s with
        executing := none, targets := upd s.targets u fun x => { x with inbox := none }
        sent := s.sent ++ [.reply u f.tag .ok data] })) ∧
  (∀ (found : StatusBlock → State) (b : Byte) (blocks : List StatusBlock), covers b blocks →
    let data := blocks.foldl (fun d k => (found k).readBlock k d) []
    (∀ k ∈ blocks, (found k).Shows k data) ∧ (b = 0 → data.length = 39) ∧
    (∀ u : Target, blocks = [.inputState u, .targetPort u] →
      data.length = 12 + 4 * ((found (.inputState u)).keyStates[u].keys.length)) ∧
    ∀ p : Port, blocks = [.consolePort p] → data.length = 3 + (found (.consolePort p)).ports[p].supKeys.length) ∧
  ∀ (c : Instr) (u : Target) (sought : Option ControlFrame) (left : List StatusBlock) (data : List Byte) (s : State),
    s.executing = some ⟨u, sought, .status left data⟩ → c ∈ [Instr.tableRead, .tableWrite, .layoutHold, .layoutRelease, .layoutAbandon,
      .focusSet, .wake, .windowShow, .noticeRead, .noticeClear, .noticeSubscribe, .deskReset, .badCommand] → exec c s = .next s

/-- The notice commands (R174, R175, R181): NOTICE_READ reports flags, the eight sets and the highest-priority pending kind; NOTICE_CLEAR
removes the named subjects of one kind, or refuses a kind outside 1..8 or a foreign subject; NOTICE_SUBSCRIBE sets the sender's membership,
or refuses a value above 1. None sends a T_NOTICE. -/
def Obligations.NoticeCommandsReadClearAndSubscribe : Prop :=
  ∀ (t : Target) (f : ControlFrame) (s : State),
    (s.Serves t f .noticeRead → exec .noticeRead s = .next (s.answered t f .ok
      ([maskOf 8 fun i => decide (s.notices[i] ≠ 0)] ++ s.notices.toList.flatMap (fun n => beBytes 2 n.toNat) ++
        [BitVec.ofNat 8 (((List.finRange 8).find? fun i => decide (s.notices[i] ≠ 0)).elim 0 fun i => i.val + 1)]))) ∧
    (∀ (k hi lo : Byte), s.Serves t f .noticeClear → f.args = [k, hi, lo] →
      (k = 0 ∨ 8 < k.toNat → exec .noticeClear s = .next (s.answered t f .badValue [0xE1])) ∧
      ∀ kind : NoticeKind, k.toNat = kind.index.val + 1 →
        ((hi ++ lo) &&& ~~~kind.subjects ≠ 0 → exec .noticeClear s = .next (s.answered t f .badValue [0xE2])) ∧
        ((hi ++ lo) &&& ~~~kind.subjects = 0 → exec .noticeClear s =
          .next ({ s with notices := upd s.notices kind.index fun n => n &&& ~~~(hi ++ lo) }.answered t f .ok
            (beBytes 2 (s.notices[kind.index] &&& ~~~(hi ++ lo)).toNat)))) ∧
    (∀ v : Byte, s.Serves t f .noticeSubscribe → f.args = [v] →
      (v = 1 → ∃ s' : State, exec .noticeSubscribe s = .next (s'.answered t f .ok [1]) ∧ s' = { s with subscribers := s'.subscribers } ∧
        ∀ u : Target, has s'.subscribers u = (decide (u = t) || has s.subscribers u)) ∧
      (v = 0 → ∃ s' : State, exec .noticeSubscribe s = .next (s'.answered t f .ok [0]) ∧ s' = { s with subscribers := s'.subscribers } ∧
        ∀ u : Target, has s'.subscribers u = (decide (u ≠ t) && has s.subscribers u)) ∧
      (1 < v.toNat → exec .noticeSubscribe s = .next (s.answered t f .badValue [0xE1])))

/-- DESK_RESET (R23, R38, R48, R49, R64, R79, R122, R132, R161, R177, R178), part by part. The frame taken begins it with part 1: WAKING targets
become SUSPENDED. Each further part is one event, taken under the state it finds, so that rows of lanes, timers and frame starts may stand
between: part 2 empties every key-state table and button record, places what the console ports hold in their suppressed sets, and resets
focus, pointer and detector, with the C_LEDS of R49; part 3 empties the queues and resyncs what it finds ACTIVE with the view and buttons of
then; part 4 clears ages and stale flags; part 5 abandons the hold; part 6 empties the notice sets. After part 6 the reply OK is sent, unless
the sender was torn down between the parts. Meanwhile no other control command is executed (R163). Taken with nothing between, the seven
rows keep tables, straps, attachments, modes, credits, LED states, last target points, head states, shown set and subscription set and
return the rest to a known state. The model's own choices: that a DESK_RESET row stands for one part, and one more row for the reply
(notes/assumptions/29.md); what part 3 makes of a target WAKING or ACTIVE only since part 1 (notes/assumptions/30.md); that a record set CLEARED keeps its home steps and assumed
point (notes/assumptions/20.md); the C_LEDS of different lanes in port order (notes/assumptions/21.md). -/
def Obligations.DeskResetReturnsToAKnownState : Prop :=
  (∀ (t : Target) (f : ControlFrame) (s : State), s.Serves t f .deskReset → exec .deskReset s = .next { s with
    ctrlLast := t, executing := some ⟨t, some f, .reset .focusUnit⟩
    targets := updAll s.targets fun _ x =>
      if x.power = .waking then { x with power := .suspended, wakeTimer := none, retry := 0, hold := [] } else x }) ∧
  (∀ (u : Target) (sought : Option ControlFrame) (stage : ResetStage) (s : State), s.resetAsserted = false →
    s.executing = some ⟨u, sought, .reset stage⟩ → ∃ s' : State, exec .deskReset s = .next s' ∧
    (stage = .focusUnit → s.LayoutSound → ∃ (p : Place) (o : Target),
      s.active.firstScreen = some p ∧ s.active.displayOwner p.display = some o ∧
      s' = { s with executing := some ⟨u, sought, .reset .targetPorts⟩, ports := s'.ports, detector := ⟨.idle, none, none, none⟩,
                    keyStates := s'.keyStates, focus := ⟨o, s'.focus.region, .reset, false, false, []⟩,
                    glide := Glide.at (s.active.screen p).centre.1 (s.active.screen p).centre.2, sent := s'.sent } ∧
      s.regionAt (s.active.screen p).centre.1 (s.active.screen p).centre.2 = some s'.focus.region ∧
      s'.sent = s.sent ++ ((List.finRange 4).filter fun q => s.ports[q].attached && s.ports[q].cls = some .keyboard &&
        (s.consoles[q].pin).isNone).map (fun q => .leds q s.targets[o].leds) ∧
      (∀ v : Target, s'.keyStates[v] = { KeyState.initial with counter := s.keyStates[v].counter }) ∧ s.SamePortsButSuppressed s' ∧
      ∀ (q : Port) (i : Item), s'.ports[q].suppressed i =
        (s.ports[q].suppressed i || s.ports[q].holding i || (List.finRange 8).any fun v => s.keyStates[v].holds q i)) ∧
    (stage = .targetPorts → s' = { s with executing := some ⟨u, sought, .reset .compositor⟩, targets := s'.targets } ∧
      ∀ v : Target,
        let x := s.targets[v]
        let b := s.buttonSet v
        s'.targets[v] = { x with
          hold := [], sync := { x.sync with phase := .cleared }, resync := false
          stall := if x.power = .active ∧ x.credit = 0 then some s.desk.stallTime else none
          queue := if x.power = .active then [.keys (s.view v).1 (s.view v).2, match x.mode with
            | .absolute => .abs (absCoord x.lx s.active.desktops[v].dw) (absCoord x.ly s.active.desktops[v].dh) 0 b
            | m => .rel 0 0 0 (buttonsIn m b) false] else [] }) ∧
    (stage = .compositor → s' = { s with
      executing := some ⟨u, sought, .reset .layoutStore⟩, windows := updAll s.windows fun _ r => { r with age := 0, stale := false } }) ∧
    (stage = .layoutStore → s' = { s with executing := some ⟨u, sought, .reset .noticeRecord⟩, edit := s.active, holdOwner := none }) ∧
    (stage = .noticeRecord → s' = { s with
      executing := some ⟨u, sought, .reset .answer⟩, notices := Vector.ofFn fun _ => 0 }) ∧
    (stage = .answer →
      (sought = none → s' = { s with executing := none }) ∧
      ∀ f : ControlFrame, sought = some f → s.targets[u].attached = true → s' = { s with
        executing := none, targets := upd s.targets u fun x => { x with inbox := none }
        sent := s.sent ++ [.reply u f.tag .ok []] })) ∧
  (∀ (c : Instr) (u : Target) (sought : Option ControlFrame) (stage : ResetStage) (s : State),
    s.executing = some ⟨u, sought, .reset stage⟩ → c ∈ [Instr.tableRead, .tableWrite, .layoutHold, .layoutRelease, .layoutAbandon, .focusSet,
    .wake, .windowShow, .statusRead, .noticeRead, .noticeClear, .noticeSubscribe, .badCommand] → exec c s = .next s) ∧
  ∀ (t : Target) (f : ControlFrame) (s : State), s.Serves t f .deskReset → s.LayoutSound →
    ∃ (s1 : State) (p : Place) (o : Target), execTimes .deskReset 7 s = .next (s1.answered t f .ok []) ∧
    s.active.firstScreen = some p ∧ s.active.displayOwner p.display = some o ∧
    s1 = { s with ctrlLast := t, edit := s.active, holdOwner := none, ports := s1.ports, detector := ⟨.idle, none, none, none⟩,
                  keyStates := s1.keyStates, focus := ⟨o, s1.focus.region, .reset, false, false, []⟩,
                  glide := Glide.at (s.active.screen p).centre.1 (s.active.screen p).centre.2, targets := s1.targets,
                  windows := s1.windows, notices := Vector.ofFn fun _ => 0, sent := s1.sent } ∧
    s.regionAt (s.active.screen p).centre.1 (s.active.screen p).centre.2 = some s1.focus.region ∧
    (∀ w : Window, s1.windows[w] = { s.windows[w] with age := 0, stale := false }) ∧
    s1.sent = s.sent ++ ((List.finRange 4).filter fun q => s.ports[q].attached && s.ports[q].cls = some .keyboard &&
      (s.consoles[q].pin).isNone).map (fun q => .leds q s.targets[o].leds) ∧
    (∀ u : Target, s1.keyStates[u] = { KeyState.initial with counter := s.keyStates[u].counter }) ∧
    s.SamePortsButSuppressed s1 ∧
    ∀ u : Target,
      let x := s.targets[u]
      let y := s1.targets[u]
      y.attached = x.attached ∧ y.mode = x.mode ∧ y.credit = x.credit ∧ y.lx = x.lx ∧ y.ly = x.ly ∧ y.leds = x.leds ∧
      y.inbox = x.inbox ∧ y.hold = [] ∧ y.sync.phase = .cleared ∧ y.resync = false ∧
      (x.power = .waking → y.power = .suspended ∧ y.wakeTimer = none ∧ y.retry = 0) ∧
      (x.power ≠ .waking → y.power = x.power ∧ y.wakeTimer = x.wakeTimer ∧ y.retry = x.retry) ∧ (y.power ≠ .active → y.queue = []) ∧
      (y.power = .active → y.queue = [.keys 0 [], match x.mode with
        | .absolute => .abs (absCoord x.lx s.active.desktops[u].dw) (absCoord x.ly s.active.desktops[u].dh) 0 0
        | _ => .rel 0 0 0 0 false])

/-! ## Frames on the lanes -/

/-- A well-formed frame row is read back from its lane bytes (R179, R180, 10.3): the frame of a console row on its lane is that row, and of a
target row likewise; no bit of a frame is dropped. -/
def Obligations.LaneFramesAreReadBack : Prop :=
  ∀ (i : Instr) (bytes : List Byte), i.wf = true → laneFrame i = some bytes →
    match i with
    | .cAttach p _ | .cKeys p _ _ | .cMotion p _ _ _ _ | .cDetach p | .badConsoleFrame p _ => consoleLane p bytes = i
    | .pAttach t _ | .pMode t _ | .pCredit t _ | .pLeds t _ | .pPower t _ | .pControl t _ _ _ | .pDetach t | .badTargetFrame t _ =>
      targetLane t bytes = i
    | _ => False

/-- The check of R179: every frame the part sends with a payload of at most 62 bytes passes it, with its kind and payload; a frame in which
one payload byte is altered fails it, and is no command on a console lane or a target lane. -/
def Obligations.FrameCheckPassesWholeAndRefusesAlteredFrames : Prop :=
  (∀ f : OutFrame, f.payload.length ≤ 62 → openFrame f.bytes = some (f.kind, f.payload)) ∧
  ∀ (kind b b' : Byte) (pre post : List Byte) (p : Port) (t : Target), (pre ++ b :: post).length ≤ 62 → b' ≠ b →
    let damaged := [kind, BitVec.ofNat 8 (pre ++ b :: post).length] ++ (pre ++ b' :: post) ++
      beBytes 2 (frameCheck kind (pre ++ b :: post))
    openFrame damaged = none ∧ consoleCommand p damaged = none ∧ targetCommand t damaged = none

/-! ## What every step keeps -/

/-- The state after reset is sound: R9, R20 (layout), R10, R49, R51, R79, R50 (focus and pointer), R39, R41 (keys), R101, R109, R145 (target
ports), R27, R130 (shown set), every table field in range, and no command in progress. The strap levels are the model's (notes/assumptions/1.md). -/
def Obligations.ResetStateIsSound : Prop :=
  State.reset.TablesInRange ∧ State.reset.LayoutSound ∧ State.reset.Bounded ∧ State.reset.PowerSound ∧ State.reset.HistorySound ∧
    State.reset.KeysSound ∧ State.reset.PointerOnScreen ∧ State.reset.FocusHoldsPoint ∧ State.reset.AccountExact ∧
    State.reset.ShownSound ∧ State.reset.SomePermit ∧ State.reset.ExecutionSound

/-- Every step keeps the layout store sound (R10, R12, R20): the active layout passes every check, fields are in range, and the two copies
are equal while no hold is open; and every table field stays in its range (R4, R36, R62, R166, R169, R180), a hotkey's trigger and the two
further checks of R63 among them. -/
def Obligations.EveryStepKeepsTheLayoutSound : Prop :=
  (∀ s t : State, s.LayoutSound → step s = .next t → t.LayoutSound) ∧
    ∀ s t : State, s.TablesInRange → step s = .next t → t.TablesInRange

/-- Every step keeps the ports within their limits, retry counts and the ascending order of suppressed keys (10.6) among them, the power
states in agreement with the queues, timers and sync records (R27, R101, R109, R113, R114, R116, R118, R145, R153, R154, R162), and a
command being executed in parts with its frame in its sender's inbox until the reply or a teardown (R162, R164, R172, R177, R178), given the wake retry fields in their range (R166), which
`EveryStepKeepsTheLayoutSound` says every step keeps. -/
def Obligations.EveryStepKeepsThePortsSound : Prop :=
  ∀ s t : State, s.TablesInRange → s.Bounded ∧ s.PowerSound ∧ s.ExecutionSound → step s = .next t →
    t.Bounded ∧ t.PowerSound ∧ t.ExecutionSound

/-- Every step keeps the focus history at most four distinct targets without the focus target (R51), and every key-state table at most twelve
distinct keys with no empty source set (R39). -/
def Obligations.EveryStepKeepsHistoryAndTablesSound : Prop :=
  (∀ s t : State, s.HistorySound → step s = .next t → t.HistorySound) ∧ ∀ s t : State, s.KeysSound → step s = .next t → t.KeysSound

/-- Every step keeps the account exact (R41): every key, modifier and button held down on a console port is accounted for exactly once, in
one target's source sets or in the port's suppressed set. -/
def Obligations.EveryStepKeepsTheAccountExact : Prop :=
  ∀ s t : State, s.AccountExact → step s = .next t → t.AccountExact

/-- Every step keeps the pointer in a screen of the active layout (R79) and, unless focus is detached, the focus target holding the point
under it (R50), given a sound layout and a shown set of enabled windows, which every step keeps too (R20, R130). -/
def Obligations.EveryStepKeepsThePointerOnAScreenOfTheFocus : Prop :=
  ∀ s t : State, s.LayoutSound ∧ s.ShownSound ∧ s.PointerOnScreen ∧ s.FocusHoldsPoint → step s = .next t →
    t.LayoutSound ∧ t.ShownSound ∧ t.PointerOnScreen ∧ t.FocusHoldsPoint

/-- Every step leaves some target with control permit (R166), and while the LOCK strap was sampled set, no step but POWER_ON changes a
policy-class field or the sampled straps (R165, R167). -/
def Obligations.EveryStepKeepsPermitsAndLockedPolicy : Prop :=
  (∀ s t : State, s.SomePermit → step s = .next t → t.SomePermit) ∧
  ∀ s t : State, s.lockStrap = true → (∀ cfgt lock rest, s.pending ≠ .powerOn cfgt lock :: rest) → step s = .next t →
    t.lockStrap = true ∧ t.cfgt = s.cfgt ∧ s.SamePolicy t
end

