-- ==== Sys2Proof/Laws/Sets.lean ====
section
/-! SUPPORT. What the set, list and store helpers do, once for all: reading a store after an update, membership of masks, clamps. -/

namespace Sys2Proof.Machine

/-! ## Stores -/

/-- Reading an entry of a store after one entry was changed; the index is a number, as `simp` writes it. -/
@[simp] theorem upd_getElem {α : Type} {n : Nat} (v : Vector α n) (i : Fin n) (f : α → α) (j : Nat) (h : j < n) :
    (upd v i f)[j] = if j = i.val then f v[j] else v[j] := by
  by_cases e : j = i.val
  · subst e; simp [upd]
  · have e' : i.val ≠ j := fun h => e h.symm
    simp [upd, e, e']

theorem upd_get {α : Type} {n : Nat} (v : Vector α n) (i : Fin n) (f : α → α) : (upd v i f)[i] = f v[i] := by simp

theorem upd_get_ne {α : Type} {n : Nat} (v : Vector α n) (i j : Fin n) (f : α → α) (h : j ≠ i) : (upd v i f)[j] = v[j] := by
  have : j.val ≠ i.val := fun e => h (Fin.ext e)
  simp [this]

theorem upd_get_eq {α : Type} {n : Nat} (v : Vector α n) (i j : Fin n) (f : α → α) :
    (upd v i f)[j] = if j = i then f v[j] else v[j] := by
  simp [Fin.ext_iff]

/-- Reading an entry of a store after every entry was changed. -/
@[simp] theorem updAll_getElem {α : Type} {n : Nat} (v : Vector α n) (f : Fin n → α → α) (j : Nat) (h : j < n) :
    (updAll v f)[j] = f ⟨j, h⟩ v[j] := by
  simp [updAll]

theorem updAll_get {α : Type} {n : Nat} (v : Vector α n) (f : Fin n → α → α) (i : Fin n) : (updAll v f)[i] = f i v[i] := by
  simp

theorem vector_ext {α : Type} {n : Nat} {v w : Vector α n} (h : ∀ i : Fin n, v[i] = w[i]) : v = w := by
  apply Vector.ext
  intro i hi
  exact h ⟨i, hi⟩

/-- Two updates of one entry are one. -/
theorem upd_upd {α : Type} {n : Nat} (v : Vector α n) (i : Fin n) (f g : α → α) : upd (upd v i f) i g = upd v i (g ∘ f) :=
  vector_ext fun j => by simp only [upd_get_eq]; split <;> rfl

/-- An update that gives back the entry it finds changes nothing. -/
theorem upd_eq_self {α : Type} {n : Nat} (v : Vector α n) (i : Fin n) (f : α → α) (h : f v[i] = v[i]) : upd v i f = v :=
  vector_ext fun j => by
    rw [upd_get_eq]
    split
    · rename_i e; subst e; exact h
    · rfl

/-! ## Masks -/

@[simp] theorem has_zero {n : Nat} (i : Fin n) : has (0#n) i = false := by simp [has]

@[simp] theorem has_single {n : Nat} (i j : Fin n) : has (single i) j = decide (j = i) := by
  have h : single i = BitVec.twoPow n i.val := by
    apply BitVec.eq_of_toNat_eq
    rw [single, BitVec.toNat_ofNat, BitVec.toNat_twoPow]
  rw [has, h, BitVec.getLsbD_twoPow]
  simp [Fin.ext_iff, eq_comm]

@[simp] theorem has_or {n : Nat} (a b : BitVec n) (i : Fin n) : has (a ||| b) i = (has a i || has b i) := by simp [has]

@[simp] theorem has_and {n : Nat} (a b : BitVec n) (i : Fin n) : has (a &&& b) i = (has a i && has b i) := by simp [has]

@[simp] theorem has_adjoin {n : Nat} (s : BitVec n) (i j : Fin n) : has (adjoin s i) j = (has s j || decide (j = i)) := by
  simp [adjoin]

@[simp] theorem has_minus {n : Nat} (a b : BitVec n) (i : Fin n) : has (minus a b) i = (has a i && !has b i) := by
  simp [has, minus]

@[simp] theorem has_remove {n : Nat} (s : BitVec n) (i j : Fin n) : has (remove s i) j = (has s j && !decide (j = i)) := by
  simp [remove]

theorem has_maskOf : ∀ (n : Nat) (f : Fin n → Bool) (i : Fin n), has (maskOf n f) i = f i
  | 0, _, i => i.elim0
  | n + 1, f, i => by
    have ih := has_maskOf n fun i => f i.castSucc
    by_cases h : i.val = n
    · obtain rfl : i = Fin.last n := Fin.ext h
      rw [has, maskOf, BitVec.getLsbD_cons]
      simp
    · have hi : i.val < n := by omega
      have := ih ⟨i.val, hi⟩
      simp only [has, maskOf, BitVec.getLsbD_cons, h, if_false] at this ⊢
      rw [this]
      rfl

/-- A set is known by its members. -/
theorem set_ext {n : Nat} {a b : BitVec n} (h : ∀ i : Fin n, has a i = has b i) : a = b := by
  apply BitVec.eq_of_getLsbD_eq
  intro i hi
  exact h ⟨i, hi⟩

theorem mem_members {n : Nat} (s : BitVec n) (i : Fin n) : i ∈ members s ↔ has s i = true := by simp [members]

theorem members_nodup {n : Nat} (s : BitVec n) : (members s).Nodup := (List.nodup_finRange n).filter _

/-! ## Key sets and lists -/

theorem mem_addKey (k x : Key) : ∀ l : List Key, x ∈ addKey k l ↔ x = k ∨ x ∈ l
  | [] => by simp [addKey]
  | y :: ys => by
    have ih := mem_addKey k x ys
    unfold addKey
    split
    · rename_i h; subst h; simp
    · split
      · simp
      · simp [ih]; tauto

theorem mem_addKeys (ks : List Key) : ∀ (set : List Key) (x : Key), x ∈ addKeys ks set ↔ x ∈ ks ∨ x ∈ set := by
  induction ks with
  | nil => intro set x; simp [addKeys]
  | cons k ks ih =>
    intro set x
    have := ih (addKey k set) x
    simp only [addKeys, List.foldl_cons] at this ⊢
    rw [this, mem_addKey]
    simp; tauto

theorem firstAppearances_spec (l : List Key) : ∀ seen : List Key,
    (firstAppearances seen l).Nodup ∧ ∀ x, x ∈ firstAppearances seen l ↔ x ∈ l ∧ x ∉ seen := by
  induction l with
  | nil => intro seen; simp [firstAppearances]
  | cons k ks ih =>
    intro seen
    unfold firstAppearances
    split
    · rename_i h
      refine ⟨(ih seen).1, fun x => ?_⟩
      rw [(ih seen).2 x]
      simp only [List.mem_cons]
      constructor
      · rintro ⟨a, b⟩; exact ⟨.inr a, b⟩
      · rintro ⟨rfl | a, b⟩
        · exact absurd h b
        · exact ⟨a, b⟩
    · rename_i h
      have := ih (k :: seen)
      refine ⟨List.nodup_cons.2 ⟨fun m => ?_, this.1⟩, fun x => ?_⟩
      · exact ((this.2 k).1 m).2 (List.mem_cons_self ..)
      · simp only [List.mem_cons, this.2 x]
        constructor
        · rintro (rfl | ⟨a, b⟩)
          · exact ⟨.inl rfl, h⟩
          · exact ⟨.inr a, fun c => b (.inr c)⟩
        · rintro ⟨rfl | a, b⟩
          · exact .inl rfl
          · by_cases hx : x = k
            · exact .inl hx
            · exact .inr ⟨a, fun c => c.elim hx b⟩

/-! ## Arithmetic -/

theorem clamp_eq (a b x : Int) (h : a ≤ b) : clamp a b x = max a (min b x) := by
  unfold clamp; split <;> (try split) <;> omega

theorem beBytes_length : ∀ w v : Nat, (beBytes w v).length = w
  | 0, _ => rfl
  | w + 1, v => by simp [beBytes, beBytes_length w v]

/-- First appearances not yet seen are the distinct members not yet seen, each where it first stands (R31). -/
theorem firstAppearances_eq (l : List Key) : ∀ seen, firstAppearances seen l = (l.filter fun k => !seen.contains k).eraseDups := by
  induction l with
  | nil => intro _; rfl
  | cons k ks ih =>
    intro seen
    unfold firstAppearances
    by_cases h : k ∈ seen
    · simp [h, ih]
    · simp [h, ih, List.eraseDups_cons, List.filter_filter, beq_eq_decide]

end Sys2Proof.Machine
end

