-- ==== Sys2Proof/Laws/Account.lean ====
section
/-! SUPPORT. What each operation on the account does to "port p holds item i at the target" and "item i is suppressed", said once. -/

namespace Sys2Proof.Machine

/-! ## Suppressed sets -/

/-- The item is one of the given keys, modifiers or buttons. -/
def Item.among (keys : List Key) (mods : ModSet) (buttons : ButtonSet) : Item → Bool
  | .key k => keys.contains k
  | .mod m => has mods m
  | .button b => has buttons b

theorem ConsolePort.suppressAll_suppressed (keys : List Key) (mods : ModSet) (buttons : ButtonSet) (c : ConsolePort) (i : Item) :
    (c.suppressAll keys mods buttons).suppressed i = (c.suppressed i || i.among keys mods buttons) := by
  cases i with
  | key k =>
    rw [Bool.eq_iff_iff]
    simp [ConsolePort.suppressed, ConsolePort.suppressAll, Item.among, mem_addKeys, or_comm]
  | mod m => simp [ConsolePort.suppressed, ConsolePort.suppressAll, Item.among]
  | button b => simp [ConsolePort.suppressed, ConsolePort.suppressAll, Item.among]

/-- Suppressing an item adds it and no other. -/
theorem ConsolePort.suppress_suppressed (i j : Item) (c : ConsolePort) :
    (c.suppress i).suppressed j = (c.suppressed j || decide (j = i)) := by
  cases i <;> simp only [ConsolePort.suppress, ConsolePort.suppressAll_suppressed] <;> cases j <;> simp [Item.among]

/-- Unsuppressing an item removes it and no other. -/
theorem ConsolePort.unsuppress_suppressed (i j : Item) (c : ConsolePort) :
    (c.unsuppress i).suppressed j = (c.suppressed j && !decide (j = i)) := by
  cases i <;> cases j <;> simp [ConsolePort.suppressed, ConsolePort.unsuppress]

/-! ## Key-state tables and button records -/

theorem KeyState.holds_key (p : Port) (ks : KeyState) (k : Key) :
    ks.holds p (.key k) = true ↔ ∃ e ∈ ks.keys, e.key = k ∧ has e.sources p = true := by
  simp [KeyState.holds]

/-- A cleared table and button record hold nothing. -/
@[simp] theorem KeyState.clear_holds (p : Port) (ks : KeyState) (i : Item) : ks.clear.holds p i = false := by
  cases i <;> simp [KeyState.holds, KeyState.clear, KeyState.initial]

/-- What a port holds at a target, as the three sets that its suppressed set receives. -/
theorem KeyState.among_held (p : Port) (ks : KeyState) (i : Item) :
    i.among (ks.keysOf p) (ks.modsOf p) (ks.buttonsOf p) = ks.holds p i := by
  cases i with
  | key k =>
    rw [Bool.eq_iff_iff, KeyState.holds_key]
    simp only [Item.among, KeyState.keysOf, List.contains_iff_mem, List.mem_map, List.mem_filter]
    constructor
    · rintro ⟨e, ⟨h1, h2⟩, h3⟩; exact ⟨e, h1, h3, h2⟩
    · rintro ⟨e, h1, h2, h3⟩; exact ⟨e, ⟨h1, h3⟩, h2⟩
  | mod m => simp [Item.among, KeyState.modsOf, has_maskOf, KeyState.holds]
  | button b => simp [Item.among, KeyState.buttonsOf, has_maskOf, KeyState.holds]

theorem has_nonzero {n : Nat} {a : BitVec n} {i : Fin n} (h : has a i = true) : a ≠ 0#n := by
  rintro rfl; simp at h

/-- A release takes the port out of the item's source set and changes no other holding. -/
theorem KeyState.release_holds (p q : Port) (i j : Item) (ks : KeyState) :
    (ks.release p i).holds q j = (ks.holds q j && !decide (q = p ∧ j = i)) := by
  cases i <;> cases j
  case key.key k x =>
    rw [Bool.eq_iff_iff, Bool.and_eq_true, KeyState.holds_key, KeyState.holds_key]
    simp only [KeyState.release, List.mem_filter, List.mem_map, Item.key.injEq, Bool.not_eq_true', decide_eq_false_iff_not]
    constructor
    · rintro ⟨e, ⟨⟨d, hd, rfl⟩, -⟩, h3, h4⟩
      split at h3
      · rename_i hk
        rw [if_pos hk, has_remove] at h4
        simp only [Bool.and_eq_true, Bool.not_eq_true', decide_eq_false_iff_not] at h4
        exact ⟨⟨d, hd, h3, h4.1⟩, fun c => h4.2 c.1⟩
      · rename_i hk
        rw [if_neg hk] at h4
        exact ⟨⟨d, hd, h3, h4⟩, fun c => hk (h3.trans c.2)⟩
    · rintro ⟨⟨e, h1, h2, h3⟩, h4⟩
      have hs : has (if e.key = k then { e with sources := remove e.sources p } else e).sources q = true := by
        split
        · rename_i hk
          rw [has_remove, h3]
          simpa using fun c => h4 ⟨c, h2.symm.trans hk⟩
        · exact h3
      refine ⟨_, ⟨⟨e, h1, rfl⟩, ?_⟩, ?_, hs⟩
      · simpa using has_nonzero hs
      · split <;> exact h2
  case mod.mod m x => simp [KeyState.release, KeyState.holds]; split <;> simp_all [Fin.ext_iff]
  case button.button m x => simp [KeyState.release, KeyState.holds]; split <;> simp_all [Fin.ext_iff]
  all_goals simp [KeyState.release, KeyState.holds]

/-- The ports of f hold nothing after they are dropped; the other ports hold what they did. -/
theorem KeyState.dropPorts_holds (f : PortSet) (q : Port) (j : Item) (ks : KeyState) :
    (ks.dropPorts f).holds q j = (ks.holds q j && !has f q) := by
  cases j with
  | key k =>
    rw [Bool.eq_iff_iff, Bool.and_eq_true, KeyState.holds_key, KeyState.holds_key]
    simp only [KeyState.dropPorts, dropSources, List.mem_filter, List.mem_map, Bool.not_eq_true']
    constructor
    · rintro ⟨e, ⟨⟨d, hd, rfl⟩, -⟩, h3, h4⟩
      simp only [has_minus, Bool.and_eq_true, Bool.not_eq_true'] at h4
      exact ⟨⟨d, hd, h3, h4.1⟩, h4.2⟩
    · rintro ⟨⟨e, h1, h2, h3⟩, h4⟩
      have hs : has (minus e.sources f) q = true := by simp [h3, h4]
      exact ⟨_, ⟨⟨e, h1, rfl⟩, by simpa using has_nonzero hs⟩, h2, hs⟩
  | mod m => simp [KeyState.dropPorts, KeyState.holds]
  | button b => simp [KeyState.dropPorts, KeyState.holds]

/-- Carried modifiers are held in addition; nothing else changes. -/
theorem KeyState.carry_holds (c : Port → ModSet) (q : Port) (j : Item) (ks : KeyState) :
    (ks.carry c).holds q j = (ks.holds q j || match j with | .mod m => has (c q) m | .key _ => false | .button _ => false) := by
  cases j <;> simp [KeyState.carry, KeyState.holds, has_maskOf]

/-- A press that is booked makes the port hold the item and changes no other holding. -/
theorem KeyState.press_holds (p q : Port) (i j : Item) (ks ks' : KeyState) (h : ks.press p i = some ks') :
    ks'.holds q j = (ks.holds q j || decide (q = p ∧ j = i)) := by
  cases i with
  | key k =>
    simp only [KeyState.press, KeyState.pressKey] at h
    split at h
    · rename_i hk
      obtain rfl := Option.some.inj h
      cases j with
      | key x =>
        rw [Bool.eq_iff_iff, Bool.or_eq_true, KeyState.holds_key, KeyState.holds_key]
        simp only [List.mem_map, decide_eq_true_eq, Item.key.injEq]
        constructor
        · rintro ⟨e, ⟨d, hd, rfl⟩, h3, h4⟩
          split at h3
          · rename_i he
            rw [if_pos he, has_adjoin, Bool.or_eq_true] at h4
            rcases h4 with h4 | h4
            · exact .inl ⟨d, hd, h3, h4⟩
            · exact .inr ⟨of_decide_eq_true h4, h3.symm.trans he⟩
          · rename_i he
            rw [if_neg he] at h4
            exact .inl ⟨d, hd, h3, h4⟩
        · rintro (⟨e, h1, h2, h3⟩ | ⟨rfl, rfl⟩)
          · refine ⟨_, ⟨e, h1, rfl⟩, ?_, ?_⟩
            · split <;> exact h2
            · split
              · simp [h3]
              · exact h3
          · obtain ⟨e, h1, h2⟩ := List.any_eq_true.1 hk
            refine ⟨_, ⟨e, h1, rfl⟩, ?_, ?_⟩
            · split <;> exact of_decide_eq_true h2
            · rw [if_pos (of_decide_eq_true h2)]; simp
      | mod m => simp [KeyState.holds]
      | button b => simp [KeyState.holds]
    · split at h
      · cases h
      · obtain rfl := Option.some.inj h
        cases j <;> simp [KeyState.holds, eq_comm]
        rw [Bool.and_comm]
  | mod m =>
    obtain rfl := Option.some.inj h
    cases j <;> simp [KeyState.holds]
    split <;> simp_all [Fin.ext_iff]
  | button b =>
    obtain rfl := Option.some.inj h
    cases j <;> simp [KeyState.holds]
    split <;> simp_all [Fin.ext_iff]

end Sys2Proof.Machine
end

