-- ==== Sys2Proof/Laws/State.lean ====
section
/-! SUPPORT. One lemma per field per update of State, true by unfolding, for `simp`. -/

namespace Sys2Proof.Machine

/-! ### modPort -/

@[simp] theorem State.modPort_pending (p : Port) (f : ConsolePort → ConsolePort) (s : State) : (s.modPort p f).pending = s.pending := rfl
@[simp] theorem State.modPort_sent (p : Port) (f : ConsolePort → ConsolePort) (s : State) : (s.modPort p f).sent = s.sent := rfl
@[simp] theorem State.modPort_resetAsserted (p : Port) (f : ConsolePort → ConsolePort) (s : State) : (s.modPort p f).resetAsserted = s.resetAsserted := rfl
@[simp] theorem State.modPort_cfgt (p : Port) (f : ConsolePort → ConsolePort) (s : State) : (s.modPort p f).cfgt = s.cfgt := rfl
@[simp] theorem State.modPort_lockStrap (p : Port) (f : ConsolePort → ConsolePort) (s : State) : (s.modPort p f).lockStrap = s.lockStrap := rfl
@[simp] theorem State.modPort_active (p : Port) (f : ConsolePort → ConsolePort) (s : State) : (s.modPort p f).active = s.active := rfl
@[simp] theorem State.modPort_edit (p : Port) (f : ConsolePort → ConsolePort) (s : State) : (s.modPort p f).edit = s.edit := rfl
@[simp] theorem State.modPort_holdOwner (p : Port) (f : ConsolePort → ConsolePort) (s : State) : (s.modPort p f).holdOwner = s.holdOwner := rfl
@[simp] theorem State.modPort_budgets (p : Port) (f : ConsolePort → ConsolePort) (s : State) : (s.modPort p f).budgets = s.budgets := rfl
@[simp] theorem State.modPort_policies (p : Port) (f : ConsolePort → ConsolePort) (s : State) : (s.modPort p f).policies = s.policies := rfl
@[simp] theorem State.modPort_consoles (p : Port) (f : ConsolePort → ConsolePort) (s : State) : (s.modPort p f).consoles = s.consoles := rfl
@[simp] theorem State.modPort_hotkeys (p : Port) (f : ConsolePort → ConsolePort) (s : State) : (s.modPort p f).hotkeys = s.hotkeys := rfl
@[simp] theorem State.modPort_presets (p : Port) (f : ConsolePort → ConsolePort) (s : State) : (s.modPort p f).presets = s.presets := rfl
@[simp] theorem State.modPort_desk (p : Port) (f : ConsolePort → ConsolePort) (s : State) : (s.modPort p f).desk = s.desk := rfl
@[simp] theorem State.modPort_ports (p : Port) (f : ConsolePort → ConsolePort) (s : State) : (s.modPort p f).ports = upd s.ports p f := rfl
@[simp] theorem State.modPort_mergeLast (p : Port) (f : ConsolePort → ConsolePort) (s : State) : (s.modPort p f).mergeLast = s.mergeLast := rfl
@[simp] theorem State.modPort_detector (p : Port) (f : ConsolePort → ConsolePort) (s : State) : (s.modPort p f).detector = s.detector := rfl
@[simp] theorem State.modPort_keyStates (p : Port) (f : ConsolePort → ConsolePort) (s : State) : (s.modPort p f).keyStates = s.keyStates := rfl
@[simp] theorem State.modPort_focus (p : Port) (f : ConsolePort → ConsolePort) (s : State) : (s.modPort p f).focus = s.focus := rfl
@[simp] theorem State.modPort_glide (p : Port) (f : ConsolePort → ConsolePort) (s : State) : (s.modPort p f).glide = s.glide := rfl
@[simp] theorem State.modPort_targets (p : Port) (f : ConsolePort → ConsolePort) (s : State) : (s.modPort p f).targets = s.targets := rfl
@[simp] theorem State.modPort_deskState (p : Port) (f : ConsolePort → ConsolePort) (s : State) : (s.modPort p f).deskState = s.deskState := rfl
@[simp] theorem State.modPort_idleTimer (p : Port) (f : ConsolePort → ConsolePort) (s : State) : (s.modPort p f).idleTimer = s.idleTimer := rfl
@[simp] theorem State.modPort_heads (p : Port) (f : ConsolePort → ConsolePort) (s : State) : (s.modPort p f).heads = s.heads := rfl
@[simp] theorem State.modPort_displays (p : Port) (f : ConsolePort → ConsolePort) (s : State) : (s.modPort p f).displays = s.displays := rfl
@[simp] theorem State.modPort_windows (p : Port) (f : ConsolePort → ConsolePort) (s : State) : (s.modPort p f).windows = s.windows := rfl
@[simp] theorem State.modPort_ctrlLast (p : Port) (f : ConsolePort → ConsolePort) (s : State) : (s.modPort p f).ctrlLast = s.ctrlLast := rfl
@[simp] theorem State.modPort_executing (p : Port) (f : ConsolePort → ConsolePort) (s : State) : (s.modPort p f).executing = s.executing := rfl
@[simp] theorem State.modPort_notices (p : Port) (f : ConsolePort → ConsolePort) (s : State) : (s.modPort p f).notices = s.notices := rfl
@[simp] theorem State.modPort_subscribers (p : Port) (f : ConsolePort → ConsolePort) (s : State) : (s.modPort p f).subscribers = s.subscribers := rfl

/-! ### modTarget -/

@[simp] theorem State.modTarget_pending (t : Target) (f : TargetPort → TargetPort) (s : State) : (s.modTarget t f).pending = s.pending := rfl
@[simp] theorem State.modTarget_sent (t : Target) (f : TargetPort → TargetPort) (s : State) : (s.modTarget t f).sent = s.sent := rfl
@[simp] theorem State.modTarget_resetAsserted (t : Target) (f : TargetPort → TargetPort) (s : State) : (s.modTarget t f).resetAsserted = s.resetAsserted := rfl
@[simp] theorem State.modTarget_cfgt (t : Target) (f : TargetPort → TargetPort) (s : State) : (s.modTarget t f).cfgt = s.cfgt := rfl
@[simp] theorem State.modTarget_lockStrap (t : Target) (f : TargetPort → TargetPort) (s : State) : (s.modTarget t f).lockStrap = s.lockStrap := rfl
@[simp] theorem State.modTarget_active (t : Target) (f : TargetPort → TargetPort) (s : State) : (s.modTarget t f).active = s.active := rfl
@[simp] theorem State.modTarget_edit (t : Target) (f : TargetPort → TargetPort) (s : State) : (s.modTarget t f).edit = s.edit := rfl
@[simp] theorem State.modTarget_holdOwner (t : Target) (f : TargetPort → TargetPort) (s : State) : (s.modTarget t f).holdOwner = s.holdOwner := rfl
@[simp] theorem State.modTarget_budgets (t : Target) (f : TargetPort → TargetPort) (s : State) : (s.modTarget t f).budgets = s.budgets := rfl
@[simp] theorem State.modTarget_policies (t : Target) (f : TargetPort → TargetPort) (s : State) : (s.modTarget t f).policies = s.policies := rfl
@[simp] theorem State.modTarget_consoles (t : Target) (f : TargetPort → TargetPort) (s : State) : (s.modTarget t f).consoles = s.consoles := rfl
@[simp] theorem State.modTarget_hotkeys (t : Target) (f : TargetPort → TargetPort) (s : State) : (s.modTarget t f).hotkeys = s.hotkeys := rfl
@[simp] theorem State.modTarget_presets (t : Target) (f : TargetPort → TargetPort) (s : State) : (s.modTarget t f).presets = s.presets := rfl
@[simp] theorem State.modTarget_desk (t : Target) (f : TargetPort → TargetPort) (s : State) : (s.modTarget t f).desk = s.desk := rfl
@[simp] theorem State.modTarget_ports (t : Target) (f : TargetPort → TargetPort) (s : State) : (s.modTarget t f).ports = s.ports := rfl
@[simp] theorem State.modTarget_mergeLast (t : Target) (f : TargetPort → TargetPort) (s : State) : (s.modTarget t f).mergeLast = s.mergeLast := rfl
@[simp] theorem State.modTarget_detector (t : Target) (f : TargetPort → TargetPort) (s : State) : (s.modTarget t f).detector = s.detector := rfl
@[simp] theorem State.modTarget_keyStates (t : Target) (f : TargetPort → TargetPort) (s : State) : (s.modTarget t f).keyStates = s.keyStates := rfl
@[simp] theorem State.modTarget_focus (t : Target) (f : TargetPort → TargetPort) (s : State) : (s.modTarget t f).focus = s.focus := rfl
@[simp] theorem State.modTarget_glide (t : Target) (f : TargetPort → TargetPort) (s : State) : (s.modTarget t f).glide = s.glide := rfl
@[simp] theorem State.modTarget_targets (t : Target) (f : TargetPort → TargetPort) (s : State) : (s.modTarget t f).targets = upd s.targets t f := rfl
@[simp] theorem State.modTarget_deskState (t : Target) (f : TargetPort → TargetPort) (s : State) : (s.modTarget t f).deskState = s.deskState := rfl
@[simp] theorem State.modTarget_idleTimer (t : Target) (f : TargetPort → TargetPort) (s : State) : (s.modTarget t f).idleTimer = s.idleTimer := rfl
@[simp] theorem State.modTarget_heads (t : Target) (f : TargetPort → TargetPort) (s : State) : (s.modTarget t f).heads = s.heads := rfl
@[simp] theorem State.modTarget_displays (t : Target) (f : TargetPort → TargetPort) (s : State) : (s.modTarget t f).displays = s.displays := rfl
@[simp] theorem State.modTarget_windows (t : Target) (f : TargetPort → TargetPort) (s : State) : (s.modTarget t f).windows = s.windows := rfl
@[simp] theorem State.modTarget_ctrlLast (t : Target) (f : TargetPort → TargetPort) (s : State) : (s.modTarget t f).ctrlLast = s.ctrlLast := rfl
@[simp] theorem State.modTarget_executing (t : Target) (f : TargetPort → TargetPort) (s : State) : (s.modTarget t f).executing = s.executing := rfl
@[simp] theorem State.modTarget_notices (t : Target) (f : TargetPort → TargetPort) (s : State) : (s.modTarget t f).notices = s.notices := rfl
@[simp] theorem State.modTarget_subscribers (t : Target) (f : TargetPort → TargetPort) (s : State) : (s.modTarget t f).subscribers = s.subscribers := rfl

/-! ### modKeys -/

@[simp] theorem State.modKeys_pending (t : Target) (f : KeyState → KeyState) (s : State) : (s.modKeys t f).pending = s.pending := rfl
@[simp] theorem State.modKeys_sent (t : Target) (f : KeyState → KeyState) (s : State) : (s.modKeys t f).sent = s.sent := rfl
@[simp] theorem State.modKeys_resetAsserted (t : Target) (f : KeyState → KeyState) (s : State) : (s.modKeys t f).resetAsserted = s.resetAsserted := rfl
@[simp] theorem State.modKeys_cfgt (t : Target) (f : KeyState → KeyState) (s : State) : (s.modKeys t f).cfgt = s.cfgt := rfl
@[simp] theorem State.modKeys_lockStrap (t : Target) (f : KeyState → KeyState) (s : State) : (s.modKeys t f).lockStrap = s.lockStrap := rfl
@[simp] theorem State.modKeys_active (t : Target) (f : KeyState → KeyState) (s : State) : (s.modKeys t f).active = s.active := rfl
@[simp] theorem State.modKeys_edit (t : Target) (f : KeyState → KeyState) (s : State) : (s.modKeys t f).edit = s.edit := rfl
@[simp] theorem State.modKeys_holdOwner (t : Target) (f : KeyState → KeyState) (s : State) : (s.modKeys t f).holdOwner = s.holdOwner := rfl
@[simp] theorem State.modKeys_budgets (t : Target) (f : KeyState → KeyState) (s : State) : (s.modKeys t f).budgets = s.budgets := rfl
@[simp] theorem State.modKeys_policies (t : Target) (f : KeyState → KeyState) (s : State) : (s.modKeys t f).policies = s.policies := rfl
@[simp] theorem State.modKeys_consoles (t : Target) (f : KeyState → KeyState) (s : State) : (s.modKeys t f).consoles = s.consoles := rfl
@[simp] theorem State.modKeys_hotkeys (t : Target) (f : KeyState → KeyState) (s : State) : (s.modKeys t f).hotkeys = s.hotkeys := rfl
@[simp] theorem State.modKeys_presets (t : Target) (f : KeyState → KeyState) (s : State) : (s.modKeys t f).presets = s.presets := rfl
@[simp] theorem State.modKeys_desk (t : Target) (f : KeyState → KeyState) (s : State) : (s.modKeys t f).desk = s.desk := rfl
@[simp] theorem State.modKeys_ports (t : Target) (f : KeyState → KeyState) (s : State) : (s.modKeys t f).ports = s.ports := rfl
@[simp] theorem State.modKeys_mergeLast (t : Target) (f : KeyState → KeyState) (s : State) : (s.modKeys t f).mergeLast = s.mergeLast := rfl
@[simp] theorem State.modKeys_detector (t : Target) (f : KeyState → KeyState) (s : State) : (s.modKeys t f).detector = s.detector := rfl
@[simp] theorem State.modKeys_keyStates (t : Target) (f : KeyState → KeyState) (s : State) : (s.modKeys t f).keyStates = upd s.keyStates t f := rfl
@[simp] theorem State.modKeys_focus (t : Target) (f : KeyState → KeyState) (s : State) : (s.modKeys t f).focus = s.focus := rfl
@[simp] theorem State.modKeys_glide (t : Target) (f : KeyState → KeyState) (s : State) : (s.modKeys t f).glide = s.glide := rfl
@[simp] theorem State.modKeys_targets (t : Target) (f : KeyState → KeyState) (s : State) : (s.modKeys t f).targets = s.targets := rfl
@[simp] theorem State.modKeys_deskState (t : Target) (f : KeyState → KeyState) (s : State) : (s.modKeys t f).deskState = s.deskState := rfl
@[simp] theorem State.modKeys_idleTimer (t : Target) (f : KeyState → KeyState) (s : State) : (s.modKeys t f).idleTimer = s.idleTimer := rfl
@[simp] theorem State.modKeys_heads (t : Target) (f : KeyState → KeyState) (s : State) : (s.modKeys t f).heads = s.heads := rfl
@[simp] theorem State.modKeys_displays (t : Target) (f : KeyState → KeyState) (s : State) : (s.modKeys t f).displays = s.displays := rfl
@[simp] theorem State.modKeys_windows (t : Target) (f : KeyState → KeyState) (s : State) : (s.modKeys t f).windows = s.windows := rfl
@[simp] theorem State.modKeys_ctrlLast (t : Target) (f : KeyState → KeyState) (s : State) : (s.modKeys t f).ctrlLast = s.ctrlLast := rfl
@[simp] theorem State.modKeys_executing (t : Target) (f : KeyState → KeyState) (s : State) : (s.modKeys t f).executing = s.executing := rfl
@[simp] theorem State.modKeys_notices (t : Target) (f : KeyState → KeyState) (s : State) : (s.modKeys t f).notices = s.notices := rfl
@[simp] theorem State.modKeys_subscribers (t : Target) (f : KeyState → KeyState) (s : State) : (s.modKeys t f).subscribers = s.subscribers := rfl

/-! ### modHead -/

@[simp] theorem State.modHead_pending (h : Head) (f : HeadState → HeadState) (s : State) : (s.modHead h f).pending = s.pending := rfl
@[simp] theorem State.modHead_sent (h : Head) (f : HeadState → HeadState) (s : State) : (s.modHead h f).sent = s.sent := rfl
@[simp] theorem State.modHead_resetAsserted (h : Head) (f : HeadState → HeadState) (s : State) : (s.modHead h f).resetAsserted = s.resetAsserted := rfl
@[simp] theorem State.modHead_cfgt (h : Head) (f : HeadState → HeadState) (s : State) : (s.modHead h f).cfgt = s.cfgt := rfl
@[simp] theorem State.modHead_lockStrap (h : Head) (f : HeadState → HeadState) (s : State) : (s.modHead h f).lockStrap = s.lockStrap := rfl
@[simp] theorem State.modHead_active (h : Head) (f : HeadState → HeadState) (s : State) : (s.modHead h f).active = s.active := rfl
@[simp] theorem State.modHead_edit (h : Head) (f : HeadState → HeadState) (s : State) : (s.modHead h f).edit = s.edit := rfl
@[simp] theorem State.modHead_holdOwner (h : Head) (f : HeadState → HeadState) (s : State) : (s.modHead h f).holdOwner = s.holdOwner := rfl
@[simp] theorem State.modHead_budgets (h : Head) (f : HeadState → HeadState) (s : State) : (s.modHead h f).budgets = s.budgets := rfl
@[simp] theorem State.modHead_policies (h : Head) (f : HeadState → HeadState) (s : State) : (s.modHead h f).policies = s.policies := rfl
@[simp] theorem State.modHead_consoles (h : Head) (f : HeadState → HeadState) (s : State) : (s.modHead h f).consoles = s.consoles := rfl
@[simp] theorem State.modHead_hotkeys (h : Head) (f : HeadState → HeadState) (s : State) : (s.modHead h f).hotkeys = s.hotkeys := rfl
@[simp] theorem State.modHead_presets (h : Head) (f : HeadState → HeadState) (s : State) : (s.modHead h f).presets = s.presets := rfl
@[simp] theorem State.modHead_desk (h : Head) (f : HeadState → HeadState) (s : State) : (s.modHead h f).desk = s.desk := rfl
@[simp] theorem State.modHead_ports (h : Head) (f : HeadState → HeadState) (s : State) : (s.modHead h f).ports = s.ports := rfl
@[simp] theorem State.modHead_mergeLast (h : Head) (f : HeadState → HeadState) (s : State) : (s.modHead h f).mergeLast = s.mergeLast := rfl
@[simp] theorem State.modHead_detector (h : Head) (f : HeadState → HeadState) (s : State) : (s.modHead h f).detector = s.detector := rfl
@[simp] theorem State.modHead_keyStates (h : Head) (f : HeadState → HeadState) (s : State) : (s.modHead h f).keyStates = s.keyStates := rfl
@[simp] theorem State.modHead_focus (h : Head) (f : HeadState → HeadState) (s : State) : (s.modHead h f).focus = s.focus := rfl
@[simp] theorem State.modHead_glide (h : Head) (f : HeadState → HeadState) (s : State) : (s.modHead h f).glide = s.glide := rfl
@[simp] theorem State.modHead_targets (h : Head) (f : HeadState → HeadState) (s : State) : (s.modHead h f).targets = s.targets := rfl
@[simp] theorem State.modHead_deskState (h : Head) (f : HeadState → HeadState) (s : State) : (s.modHead h f).deskState = s.deskState := rfl
@[simp] theorem State.modHead_idleTimer (h : Head) (f : HeadState → HeadState) (s : State) : (s.modHead h f).idleTimer = s.idleTimer := rfl
@[simp] theorem State.modHead_heads (h : Head) (f : HeadState → HeadState) (s : State) : (s.modHead h f).heads = upd s.heads h f := rfl
@[simp] theorem State.modHead_displays (h : Head) (f : HeadState → HeadState) (s : State) : (s.modHead h f).displays = s.displays := rfl
@[simp] theorem State.modHead_windows (h : Head) (f : HeadState → HeadState) (s : State) : (s.modHead h f).windows = s.windows := rfl
@[simp] theorem State.modHead_ctrlLast (h : Head) (f : HeadState → HeadState) (s : State) : (s.modHead h f).ctrlLast = s.ctrlLast := rfl
@[simp] theorem State.modHead_executing (h : Head) (f : HeadState → HeadState) (s : State) : (s.modHead h f).executing = s.executing := rfl
@[simp] theorem State.modHead_notices (h : Head) (f : HeadState → HeadState) (s : State) : (s.modHead h f).notices = s.notices := rfl
@[simp] theorem State.modHead_subscribers (h : Head) (f : HeadState → HeadState) (s : State) : (s.modHead h f).subscribers = s.subscribers := rfl

/-! ### modDisplay -/

@[simp] theorem State.modDisplay_pending (d : Display) (f : DisplayState → DisplayState) (s : State) : (s.modDisplay d f).pending = s.pending := rfl
@[simp] theorem State.modDisplay_sent (d : Display) (f : DisplayState → DisplayState) (s : State) : (s.modDisplay d f).sent = s.sent := rfl
@[simp] theorem State.modDisplay_resetAsserted (d : Display) (f : DisplayState → DisplayState) (s : State) : (s.modDisplay d f).resetAsserted = s.resetAsserted := rfl
@[simp] theorem State.modDisplay_cfgt (d : Display) (f : DisplayState → DisplayState) (s : State) : (s.modDisplay d f).cfgt = s.cfgt := rfl
@[simp] theorem State.modDisplay_lockStrap (d : Display) (f : DisplayState → DisplayState) (s : State) : (s.modDisplay d f).lockStrap = s.lockStrap := rfl
@[simp] theorem State.modDisplay_active (d : Display) (f : DisplayState → DisplayState) (s : State) : (s.modDisplay d f).active = s.active := rfl
@[simp] theorem State.modDisplay_edit (d : Display) (f : DisplayState → DisplayState) (s : State) : (s.modDisplay d f).edit = s.edit := rfl
@[simp] theorem State.modDisplay_holdOwner (d : Display) (f : DisplayState → DisplayState) (s : State) : (s.modDisplay d f).holdOwner = s.holdOwner := rfl
@[simp] theorem State.modDisplay_budgets (d : Display) (f : DisplayState → DisplayState) (s : State) : (s.modDisplay d f).budgets = s.budgets := rfl
@[simp] theorem State.modDisplay_policies (d : Display) (f : DisplayState → DisplayState) (s : State) : (s.modDisplay d f).policies = s.policies := rfl
@[simp] theorem State.modDisplay_consoles (d : Display) (f : DisplayState → DisplayState) (s : State) : (s.modDisplay d f).consoles = s.consoles := rfl
@[simp] theorem State.modDisplay_hotkeys (d : Display) (f : DisplayState → DisplayState) (s : State) : (s.modDisplay d f).hotkeys = s.hotkeys := rfl
@[simp] theorem State.modDisplay_presets (d : Display) (f : DisplayState → DisplayState) (s : State) : (s.modDisplay d f).presets = s.presets := rfl
@[simp] theorem State.modDisplay_desk (d : Display) (f : DisplayState → DisplayState) (s : State) : (s.modDisplay d f).desk = s.desk := rfl
@[simp] theorem State.modDisplay_ports (d : Display) (f : DisplayState → DisplayState) (s : State) : (s.modDisplay d f).ports = s.ports := rfl
@[simp] theorem State.modDisplay_mergeLast (d : Display) (f : DisplayState → DisplayState) (s : State) : (s.modDisplay d f).mergeLast = s.mergeLast := rfl
@[simp] theorem State.modDisplay_detector (d : Display) (f : DisplayState → DisplayState) (s : State) : (s.modDisplay d f).detector = s.detector := rfl
@[simp] theorem State.modDisplay_keyStates (d : Display) (f : DisplayState → DisplayState) (s : State) : (s.modDisplay d f).keyStates = s.keyStates := rfl
@[simp] theorem State.modDisplay_focus (d : Display) (f : DisplayState → DisplayState) (s : State) : (s.modDisplay d f).focus = s.focus := rfl
@[simp] theorem State.modDisplay_glide (d : Display) (f : DisplayState → DisplayState) (s : State) : (s.modDisplay d f).glide = s.glide := rfl
@[simp] theorem State.modDisplay_targets (d : Display) (f : DisplayState → DisplayState) (s : State) : (s.modDisplay d f).targets = s.targets := rfl
@[simp] theorem State.modDisplay_deskState (d : Display) (f : DisplayState → DisplayState) (s : State) : (s.modDisplay d f).deskState = s.deskState := rfl
@[simp] theorem State.modDisplay_idleTimer (d : Display) (f : DisplayState → DisplayState) (s : State) : (s.modDisplay d f).idleTimer = s.idleTimer := rfl
@[simp] theorem State.modDisplay_heads (d : Display) (f : DisplayState → DisplayState) (s : State) : (s.modDisplay d f).heads = s.heads := rfl
@[simp] theorem State.modDisplay_displays (d : Display) (f : DisplayState → DisplayState) (s : State) : (s.modDisplay d f).displays = upd s.displays d f := rfl
@[simp] theorem State.modDisplay_windows (d : Display) (f : DisplayState → DisplayState) (s : State) : (s.modDisplay d f).windows = s.windows := rfl
@[simp] theorem State.modDisplay_ctrlLast (d : Display) (f : DisplayState → DisplayState) (s : State) : (s.modDisplay d f).ctrlLast = s.ctrlLast := rfl
@[simp] theorem State.modDisplay_executing (d : Display) (f : DisplayState → DisplayState) (s : State) : (s.modDisplay d f).executing = s.executing := rfl
@[simp] theorem State.modDisplay_notices (d : Display) (f : DisplayState → DisplayState) (s : State) : (s.modDisplay d f).notices = s.notices := rfl
@[simp] theorem State.modDisplay_subscribers (d : Display) (f : DisplayState → DisplayState) (s : State) : (s.modDisplay d f).subscribers = s.subscribers := rfl

/-! ### modWindow -/

@[simp] theorem State.modWindow_pending (w : Window) (f : WindowState → WindowState) (s : State) : (s.modWindow w f).pending = s.pending := rfl
@[simp] theorem State.modWindow_sent (w : Window) (f : WindowState → WindowState) (s : State) : (s.modWindow w f).sent = s.sent := rfl
@[simp] theorem State.modWindow_resetAsserted (w : Window) (f : WindowState → WindowState) (s : State) : (s.modWindow w f).resetAsserted = s.resetAsserted := rfl
@[simp] theorem State.modWindow_cfgt (w : Window) (f : WindowState → WindowState) (s : State) : (s.modWindow w f).cfgt = s.cfgt := rfl
@[simp] theorem State.modWindow_lockStrap (w : Window) (f : WindowState → WindowState) (s : State) : (s.modWindow w f).lockStrap = s.lockStrap := rfl
@[simp] theorem State.modWindow_active (w : Window) (f : WindowState → WindowState) (s : State) : (s.modWindow w f).active = s.active := rfl
@[simp] theorem State.modWindow_edit (w : Window) (f : WindowState → WindowState) (s : State) : (s.modWindow w f).edit = s.edit := rfl
@[simp] theorem State.modWindow_holdOwner (w : Window) (f : WindowState → WindowState) (s : State) : (s.modWindow w f).holdOwner = s.holdOwner := rfl
@[simp] theorem State.modWindow_budgets (w : Window) (f : WindowState → WindowState) (s : State) : (s.modWindow w f).budgets = s.budgets := rfl
@[simp] theorem State.modWindow_policies (w : Window) (f : WindowState → WindowState) (s : State) : (s.modWindow w f).policies = s.policies := rfl
@[simp] theorem State.modWindow_consoles (w : Window) (f : WindowState → WindowState) (s : State) : (s.modWindow w f).consoles = s.consoles := rfl
@[simp] theorem State.modWindow_hotkeys (w : Window) (f : WindowState → WindowState) (s : State) : (s.modWindow w f).hotkeys = s.hotkeys := rfl
@[simp] theorem State.modWindow_presets (w : Window) (f : WindowState → WindowState) (s : State) : (s.modWindow w f).presets = s.presets := rfl
@[simp] theorem State.modWindow_desk (w : Window) (f : WindowState → WindowState) (s : State) : (s.modWindow w f).desk = s.desk := rfl
@[simp] theorem State.modWindow_ports (w : Window) (f : WindowState → WindowState) (s : State) : (s.modWindow w f).ports = s.ports := rfl
@[simp] theorem State.modWindow_mergeLast (w : Window) (f : WindowState → WindowState) (s : State) : (s.modWindow w f).mergeLast = s.mergeLast := rfl
@[simp] theorem State.modWindow_detector (w : Window) (f : WindowState → WindowState) (s : State) : (s.modWindow w f).detector = s.detector := rfl
@[simp] theorem State.modWindow_keyStates (w : Window) (f : WindowState → WindowState) (s : State) : (s.modWindow w f).keyStates = s.keyStates := rfl
@[simp] theorem State.modWindow_focus (w : Window) (f : WindowState → WindowState) (s : State) : (s.modWindow w f).focus = s.focus := rfl
@[simp] theorem State.modWindow_glide (w : Window) (f : WindowState → WindowState) (s : State) : (s.modWindow w f).glide = s.glide := rfl
@[simp] theorem State.modWindow_targets (w : Window) (f : WindowState → WindowState) (s : State) : (s.modWindow w f).targets = s.targets := rfl
@[simp] theorem State.modWindow_deskState (w : Window) (f : WindowState → WindowState) (s : State) : (s.modWindow w f).deskState = s.deskState := rfl
@[simp] theorem State.modWindow_idleTimer (w : Window) (f : WindowState → WindowState) (s : State) : (s.modWindow w f).idleTimer = s.idleTimer := rfl
@[simp] theorem State.modWindow_heads (w : Window) (f : WindowState → WindowState) (s : State) : (s.modWindow w f).heads = s.heads := rfl
@[simp] theorem State.modWindow_displays (w : Window) (f : WindowState → WindowState) (s : State) : (s.modWindow w f).displays = s.displays := rfl
@[simp] theorem State.modWindow_windows (w : Window) (f : WindowState → WindowState) (s : State) : (s.modWindow w f).windows = upd s.windows w f := rfl
@[simp] theorem State.modWindow_ctrlLast (w : Window) (f : WindowState → WindowState) (s : State) : (s.modWindow w f).ctrlLast = s.ctrlLast := rfl
@[simp] theorem State.modWindow_executing (w : Window) (f : WindowState → WindowState) (s : State) : (s.modWindow w f).executing = s.executing := rfl
@[simp] theorem State.modWindow_notices (w : Window) (f : WindowState → WindowState) (s : State) : (s.modWindow w f).notices = s.notices := rfl
@[simp] theorem State.modWindow_subscribers (w : Window) (f : WindowState → WindowState) (s : State) : (s.modWindow w f).subscribers = s.subscribers := rfl

/-! ### send -/

@[simp] theorem State.send_pending (f : OutFrame) (s : State) : (s.send f).pending = s.pending := rfl
@[simp] theorem State.send_sent (f : OutFrame) (s : State) : (s.send f).sent = s.sent ++ [f] := rfl
@[simp] theorem State.send_resetAsserted (f : OutFrame) (s : State) : (s.send f).resetAsserted = s.resetAsserted := rfl
@[simp] theorem State.send_cfgt (f : OutFrame) (s : State) : (s.send f).cfgt = s.cfgt := rfl
@[simp] theorem State.send_lockStrap (f : OutFrame) (s : State) : (s.send f).lockStrap = s.lockStrap := rfl
@[simp] theorem State.send_active (f : OutFrame) (s : State) : (s.send f).active = s.active := rfl
@[simp] theorem State.send_edit (f : OutFrame) (s : State) : (s.send f).edit = s.edit := rfl
@[simp] theorem State.send_holdOwner (f : OutFrame) (s : State) : (s.send f).holdOwner = s.holdOwner := rfl
@[simp] theorem State.send_budgets (f : OutFrame) (s : State) : (s.send f).budgets = s.budgets := rfl
@[simp] theorem State.send_policies (f : OutFrame) (s : State) : (s.send f).policies = s.policies := rfl
@[simp] theorem State.send_consoles (f : OutFrame) (s : State) : (s.send f).consoles = s.consoles := rfl
@[simp] theorem State.send_hotkeys (f : OutFrame) (s : State) : (s.send f).hotkeys = s.hotkeys := rfl
@[simp] theorem State.send_presets (f : OutFrame) (s : State) : (s.send f).presets = s.presets := rfl
@[simp] theorem State.send_desk (f : OutFrame) (s : State) : (s.send f).desk = s.desk := rfl
@[simp] theorem State.send_ports (f : OutFrame) (s : State) : (s.send f).ports = s.ports := rfl
@[simp] theorem State.send_mergeLast (f : OutFrame) (s : State) : (s.send f).mergeLast = s.mergeLast := rfl
@[simp] theorem State.send_detector (f : OutFrame) (s : State) : (s.send f).detector = s.detector := rfl
@[simp] theorem State.send_keyStates (f : OutFrame) (s : State) : (s.send f).keyStates = s.keyStates := rfl
@[simp] theorem State.send_focus (f : OutFrame) (s : State) : (s.send f).focus = s.focus := rfl
@[simp] theorem State.send_glide (f : OutFrame) (s : State) : (s.send f).glide = s.glide := rfl
@[simp] theorem State.send_targets (f : OutFrame) (s : State) : (s.send f).targets = s.targets := rfl
@[simp] theorem State.send_deskState (f : OutFrame) (s : State) : (s.send f).deskState = s.deskState := rfl
@[simp] theorem State.send_idleTimer (f : OutFrame) (s : State) : (s.send f).idleTimer = s.idleTimer := rfl
@[simp] theorem State.send_heads (f : OutFrame) (s : State) : (s.send f).heads = s.heads := rfl
@[simp] theorem State.send_displays (f : OutFrame) (s : State) : (s.send f).displays = s.displays := rfl
@[simp] theorem State.send_windows (f : OutFrame) (s : State) : (s.send f).windows = s.windows := rfl
@[simp] theorem State.send_ctrlLast (f : OutFrame) (s : State) : (s.send f).ctrlLast = s.ctrlLast := rfl
@[simp] theorem State.send_executing (f : OutFrame) (s : State) : (s.send f).executing = s.executing := rfl
@[simp] theorem State.send_notices (f : OutFrame) (s : State) : (s.send f).notices = s.notices := rfl
@[simp] theorem State.send_subscribers (f : OutFrame) (s : State) : (s.send f).subscribers = s.subscribers := rfl

/-! ### setDetector -/

@[simp] theorem State.setDetector_pending (d : Detector) (s : State) : (s.setDetector d).pending = s.pending := rfl
@[simp] theorem State.setDetector_sent (d : Detector) (s : State) : (s.setDetector d).sent = s.sent := rfl
@[simp] theorem State.setDetector_resetAsserted (d : Detector) (s : State) : (s.setDetector d).resetAsserted = s.resetAsserted := rfl
@[simp] theorem State.setDetector_cfgt (d : Detector) (s : State) : (s.setDetector d).cfgt = s.cfgt := rfl
@[simp] theorem State.setDetector_lockStrap (d : Detector) (s : State) : (s.setDetector d).lockStrap = s.lockStrap := rfl
@[simp] theorem State.setDetector_active (d : Detector) (s : State) : (s.setDetector d).active = s.active := rfl
@[simp] theorem State.setDetector_edit (d : Detector) (s : State) : (s.setDetector d).edit = s.edit := rfl
@[simp] theorem State.setDetector_holdOwner (d : Detector) (s : State) : (s.setDetector d).holdOwner = s.holdOwner := rfl
@[simp] theorem State.setDetector_budgets (d : Detector) (s : State) : (s.setDetector d).budgets = s.budgets := rfl
@[simp] theorem State.setDetector_policies (d : Detector) (s : State) : (s.setDetector d).policies = s.policies := rfl
@[simp] theorem State.setDetector_consoles (d : Detector) (s : State) : (s.setDetector d).consoles = s.consoles := rfl
@[simp] theorem State.setDetector_hotkeys (d : Detector) (s : State) : (s.setDetector d).hotkeys = s.hotkeys := rfl
@[simp] theorem State.setDetector_presets (d : Detector) (s : State) : (s.setDetector d).presets = s.presets := rfl
@[simp] theorem State.setDetector_desk (d : Detector) (s : State) : (s.setDetector d).desk = s.desk := rfl
@[simp] theorem State.setDetector_ports (d : Detector) (s : State) : (s.setDetector d).ports = s.ports := rfl
@[simp] theorem State.setDetector_mergeLast (d : Detector) (s : State) : (s.setDetector d).mergeLast = s.mergeLast := rfl
@[simp] theorem State.setDetector_detector (d : Detector) (s : State) : (s.setDetector d).detector = d := rfl
@[simp] theorem State.setDetector_keyStates (d : Detector) (s : State) : (s.setDetector d).keyStates = s.keyStates := rfl
@[simp] theorem State.setDetector_focus (d : Detector) (s : State) : (s.setDetector d).focus = s.focus := rfl
@[simp] theorem State.setDetector_glide (d : Detector) (s : State) : (s.setDetector d).glide = s.glide := rfl
@[simp] theorem State.setDetector_targets (d : Detector) (s : State) : (s.setDetector d).targets = s.targets := rfl
@[simp] theorem State.setDetector_deskState (d : Detector) (s : State) : (s.setDetector d).deskState = s.deskState := rfl
@[simp] theorem State.setDetector_idleTimer (d : Detector) (s : State) : (s.setDetector d).idleTimer = s.idleTimer := rfl
@[simp] theorem State.setDetector_heads (d : Detector) (s : State) : (s.setDetector d).heads = s.heads := rfl
@[simp] theorem State.setDetector_displays (d : Detector) (s : State) : (s.setDetector d).displays = s.displays := rfl
@[simp] theorem State.setDetector_windows (d : Detector) (s : State) : (s.setDetector d).windows = s.windows := rfl
@[simp] theorem State.setDetector_ctrlLast (d : Detector) (s : State) : (s.setDetector d).ctrlLast = s.ctrlLast := rfl
@[simp] theorem State.setDetector_executing (d : Detector) (s : State) : (s.setDetector d).executing = s.executing := rfl
@[simp] theorem State.setDetector_notices (d : Detector) (s : State) : (s.setDetector d).notices = s.notices := rfl
@[simp] theorem State.setDetector_subscribers (d : Detector) (s : State) : (s.setDetector d).subscribers = s.subscribers := rfl

/-! ### sendLeds -/

@[simp] theorem State.sendLeds_pending (c : Port → Bool) (s : State) : (s.sendLeds c).pending = s.pending := rfl
@[simp] theorem State.sendLeds_sent (c : Port → Bool) (s : State) : (s.sendLeds c).sent = s.sent ++ ((List.finRange 4).filter fun p => s.showsLeds p && c p).map s.ledFrame := rfl
@[simp] theorem State.sendLeds_resetAsserted (c : Port → Bool) (s : State) : (s.sendLeds c).resetAsserted = s.resetAsserted := rfl
@[simp] theorem State.sendLeds_cfgt (c : Port → Bool) (s : State) : (s.sendLeds c).cfgt = s.cfgt := rfl
@[simp] theorem State.sendLeds_lockStrap (c : Port → Bool) (s : State) : (s.sendLeds c).lockStrap = s.lockStrap := rfl
@[simp] theorem State.sendLeds_active (c : Port → Bool) (s : State) : (s.sendLeds c).active = s.active := rfl
@[simp] theorem State.sendLeds_edit (c : Port → Bool) (s : State) : (s.sendLeds c).edit = s.edit := rfl
@[simp] theorem State.sendLeds_holdOwner (c : Port → Bool) (s : State) : (s.sendLeds c).holdOwner = s.holdOwner := rfl
@[simp] theorem State.sendLeds_budgets (c : Port → Bool) (s : State) : (s.sendLeds c).budgets = s.budgets := rfl
@[simp] theorem State.sendLeds_policies (c : Port → Bool) (s : State) : (s.sendLeds c).policies = s.policies := rfl
@[simp] theorem State.sendLeds_consoles (c : Port → Bool) (s : State) : (s.sendLeds c).consoles = s.consoles := rfl
@[simp] theorem State.sendLeds_hotkeys (c : Port → Bool) (s : State) : (s.sendLeds c).hotkeys = s.hotkeys := rfl
@[simp] theorem State.sendLeds_presets (c : Port → Bool) (s : State) : (s.sendLeds c).presets = s.presets := rfl
@[simp] theorem State.sendLeds_desk (c : Port → Bool) (s : State) : (s.sendLeds c).desk = s.desk := rfl
@[simp] theorem State.sendLeds_ports (c : Port → Bool) (s : State) : (s.sendLeds c).ports = s.ports := rfl
@[simp] theorem State.sendLeds_mergeLast (c : Port → Bool) (s : State) : (s.sendLeds c).mergeLast = s.mergeLast := rfl
@[simp] theorem State.sendLeds_detector (c : Port → Bool) (s : State) : (s.sendLeds c).detector = s.detector := rfl
@[simp] theorem State.sendLeds_keyStates (c : Port → Bool) (s : State) : (s.sendLeds c).keyStates = s.keyStates := rfl
@[simp] theorem State.sendLeds_focus (c : Port → Bool) (s : State) : (s.sendLeds c).focus = s.focus := rfl
@[simp] theorem State.sendLeds_glide (c : Port → Bool) (s : State) : (s.sendLeds c).glide = s.glide := rfl
@[simp] theorem State.sendLeds_targets (c : Port → Bool) (s : State) : (s.sendLeds c).targets = s.targets := rfl
@[simp] theorem State.sendLeds_deskState (c : Port → Bool) (s : State) : (s.sendLeds c).deskState = s.deskState := rfl
@[simp] theorem State.sendLeds_idleTimer (c : Port → Bool) (s : State) : (s.sendLeds c).idleTimer = s.idleTimer := rfl
@[simp] theorem State.sendLeds_heads (c : Port → Bool) (s : State) : (s.sendLeds c).heads = s.heads := rfl
@[simp] theorem State.sendLeds_displays (c : Port → Bool) (s : State) : (s.sendLeds c).displays = s.displays := rfl
@[simp] theorem State.sendLeds_windows (c : Port → Bool) (s : State) : (s.sendLeds c).windows = s.windows := rfl
@[simp] theorem State.sendLeds_ctrlLast (c : Port → Bool) (s : State) : (s.sendLeds c).ctrlLast = s.ctrlLast := rfl
@[simp] theorem State.sendLeds_executing (c : Port → Bool) (s : State) : (s.sendLeds c).executing = s.executing := rfl
@[simp] theorem State.sendLeds_notices (c : Port → Bool) (s : State) : (s.sendLeds c).notices = s.notices := rfl
@[simp] theorem State.sendLeds_subscribers (c : Port → Bool) (s : State) : (s.sendLeds c).subscribers = s.subscribers := rfl

/-! ### raise -/

@[simp] theorem State.raise_pending (k : NoticeKind) (i : Fin 16) (s : State) : (s.raise k i).pending = s.pending := rfl
@[simp] theorem State.raise_resetAsserted (k : NoticeKind) (i : Fin 16) (s : State) : (s.raise k i).resetAsserted = s.resetAsserted := rfl
@[simp] theorem State.raise_cfgt (k : NoticeKind) (i : Fin 16) (s : State) : (s.raise k i).cfgt = s.cfgt := rfl
@[simp] theorem State.raise_lockStrap (k : NoticeKind) (i : Fin 16) (s : State) : (s.raise k i).lockStrap = s.lockStrap := rfl
@[simp] theorem State.raise_active (k : NoticeKind) (i : Fin 16) (s : State) : (s.raise k i).active = s.active := rfl
@[simp] theorem State.raise_edit (k : NoticeKind) (i : Fin 16) (s : State) : (s.raise k i).edit = s.edit := rfl
@[simp] theorem State.raise_holdOwner (k : NoticeKind) (i : Fin 16) (s : State) : (s.raise k i).holdOwner = s.holdOwner := rfl
@[simp] theorem State.raise_budgets (k : NoticeKind) (i : Fin 16) (s : State) : (s.raise k i).budgets = s.budgets := rfl
@[simp] theorem State.raise_policies (k : NoticeKind) (i : Fin 16) (s : State) : (s.raise k i).policies = s.policies := rfl
@[simp] theorem State.raise_consoles (k : NoticeKind) (i : Fin 16) (s : State) : (s.raise k i).consoles = s.consoles := rfl
@[simp] theorem State.raise_hotkeys (k : NoticeKind) (i : Fin 16) (s : State) : (s.raise k i).hotkeys = s.hotkeys := rfl
@[simp] theorem State.raise_presets (k : NoticeKind) (i : Fin 16) (s : State) : (s.raise k i).presets = s.presets := rfl
@[simp] theorem State.raise_desk (k : NoticeKind) (i : Fin 16) (s : State) : (s.raise k i).desk = s.desk := rfl
@[simp] theorem State.raise_ports (k : NoticeKind) (i : Fin 16) (s : State) : (s.raise k i).ports = s.ports := rfl
@[simp] theorem State.raise_mergeLast (k : NoticeKind) (i : Fin 16) (s : State) : (s.raise k i).mergeLast = s.mergeLast := rfl
@[simp] theorem State.raise_detector (k : NoticeKind) (i : Fin 16) (s : State) : (s.raise k i).detector = s.detector := rfl
@[simp] theorem State.raise_keyStates (k : NoticeKind) (i : Fin 16) (s : State) : (s.raise k i).keyStates = s.keyStates := rfl
@[simp] theorem State.raise_focus (k : NoticeKind) (i : Fin 16) (s : State) : (s.raise k i).focus = s.focus := rfl
@[simp] theorem State.raise_glide (k : NoticeKind) (i : Fin 16) (s : State) : (s.raise k i).glide = s.glide := rfl
@[simp] theorem State.raise_targets (k : NoticeKind) (i : Fin 16) (s : State) : (s.raise k i).targets = s.targets := rfl
@[simp] theorem State.raise_deskState (k : NoticeKind) (i : Fin 16) (s : State) : (s.raise k i).deskState = s.deskState := rfl
@[simp] theorem State.raise_idleTimer (k : NoticeKind) (i : Fin 16) (s : State) : (s.raise k i).idleTimer = s.idleTimer := rfl
@[simp] theorem State.raise_heads (k : NoticeKind) (i : Fin 16) (s : State) : (s.raise k i).heads = s.heads := rfl
@[simp] theorem State.raise_displays (k : NoticeKind) (i : Fin 16) (s : State) : (s.raise k i).displays = s.displays := rfl
@[simp] theorem State.raise_windows (k : NoticeKind) (i : Fin 16) (s : State) : (s.raise k i).windows = s.windows := rfl
@[simp] theorem State.raise_ctrlLast (k : NoticeKind) (i : Fin 16) (s : State) : (s.raise k i).ctrlLast = s.ctrlLast := rfl
@[simp] theorem State.raise_executing (k : NoticeKind) (i : Fin 16) (s : State) : (s.raise k i).executing = s.executing := rfl
@[simp] theorem State.raise_notices (k : NoticeKind) (i : Fin 16) (s : State) : (s.raise k i).notices = upd s.notices k.index fun _ => adjoin (s.subjects k) i := rfl
@[simp] theorem State.raise_subscribers (k : NoticeKind) (i : Fin 16) (s : State) : (s.raise k i).subscribers = s.subscribers := rfl

/-! ### clearInput -/

@[simp] theorem State.clearInput_pending (t : Target) (s : State) : (s.clearInput t).pending = s.pending := rfl
@[simp] theorem State.clearInput_sent (t : Target) (s : State) : (s.clearInput t).sent = s.sent := rfl
@[simp] theorem State.clearInput_resetAsserted (t : Target) (s : State) : (s.clearInput t).resetAsserted = s.resetAsserted := rfl
@[simp] theorem State.clearInput_cfgt (t : Target) (s : State) : (s.clearInput t).cfgt = s.cfgt := rfl
@[simp] theorem State.clearInput_lockStrap (t : Target) (s : State) : (s.clearInput t).lockStrap = s.lockStrap := rfl
@[simp] theorem State.clearInput_active (t : Target) (s : State) : (s.clearInput t).active = s.active := rfl
@[simp] theorem State.clearInput_edit (t : Target) (s : State) : (s.clearInput t).edit = s.edit := rfl
@[simp] theorem State.clearInput_holdOwner (t : Target) (s : State) : (s.clearInput t).holdOwner = s.holdOwner := rfl
@[simp] theorem State.clearInput_budgets (t : Target) (s : State) : (s.clearInput t).budgets = s.budgets := rfl
@[simp] theorem State.clearInput_policies (t : Target) (s : State) : (s.clearInput t).policies = s.policies := rfl
@[simp] theorem State.clearInput_consoles (t : Target) (s : State) : (s.clearInput t).consoles = s.consoles := rfl
@[simp] theorem State.clearInput_hotkeys (t : Target) (s : State) : (s.clearInput t).hotkeys = s.hotkeys := rfl
@[simp] theorem State.clearInput_presets (t : Target) (s : State) : (s.clearInput t).presets = s.presets := rfl
@[simp] theorem State.clearInput_desk (t : Target) (s : State) : (s.clearInput t).desk = s.desk := rfl
@[simp] theorem State.clearInput_mergeLast (t : Target) (s : State) : (s.clearInput t).mergeLast = s.mergeLast := rfl
@[simp] theorem State.clearInput_detector (t : Target) (s : State) : (s.clearInput t).detector = s.detector := rfl
@[simp] theorem State.clearInput_keyStates (t : Target) (s : State) : (s.clearInput t).keyStates = upd s.keyStates t KeyState.clear := rfl
@[simp] theorem State.clearInput_focus (t : Target) (s : State) : (s.clearInput t).focus = s.focus := rfl
@[simp] theorem State.clearInput_glide (t : Target) (s : State) : (s.clearInput t).glide = s.glide := rfl
@[simp] theorem State.clearInput_targets (t : Target) (s : State) : (s.clearInput t).targets = s.targets := rfl
@[simp] theorem State.clearInput_deskState (t : Target) (s : State) : (s.clearInput t).deskState = s.deskState := rfl
@[simp] theorem State.clearInput_idleTimer (t : Target) (s : State) : (s.clearInput t).idleTimer = s.idleTimer := rfl
@[simp] theorem State.clearInput_heads (t : Target) (s : State) : (s.clearInput t).heads = s.heads := rfl
@[simp] theorem State.clearInput_displays (t : Target) (s : State) : (s.clearInput t).displays = s.displays := rfl
@[simp] theorem State.clearInput_windows (t : Target) (s : State) : (s.clearInput t).windows = s.windows := rfl
@[simp] theorem State.clearInput_ctrlLast (t : Target) (s : State) : (s.clearInput t).ctrlLast = s.ctrlLast := rfl
@[simp] theorem State.clearInput_executing (t : Target) (s : State) : (s.clearInput t).executing = s.executing := rfl
@[simp] theorem State.clearInput_notices (t : Target) (s : State) : (s.clearInput t).notices = s.notices := rfl
@[simp] theorem State.clearInput_subscribers (t : Target) (s : State) : (s.clearInput t).subscribers = s.subscribers := rfl

/-! ### abandonHold -/

@[simp] theorem State.abandonHold_pending (s : State) : (s.abandonHold).pending = s.pending := rfl
@[simp] theorem State.abandonHold_sent (s : State) : (s.abandonHold).sent = s.sent := rfl
@[simp] theorem State.abandonHold_resetAsserted (s : State) : (s.abandonHold).resetAsserted = s.resetAsserted := rfl
@[simp] theorem State.abandonHold_cfgt (s : State) : (s.abandonHold).cfgt = s.cfgt := rfl
@[simp] theorem State.abandonHold_lockStrap (s : State) : (s.abandonHold).lockStrap = s.lockStrap := rfl
@[simp] theorem State.abandonHold_active (s : State) : (s.abandonHold).active = s.active := rfl
@[simp] theorem State.abandonHold_edit (s : State) : (s.abandonHold).edit = s.active := rfl
@[simp] theorem State.abandonHold_holdOwner (s : State) : (s.abandonHold).holdOwner = none := rfl
@[simp] theorem State.abandonHold_budgets (s : State) : (s.abandonHold).budgets = s.budgets := rfl
@[simp] theorem State.abandonHold_policies (s : State) : (s.abandonHold).policies = s.policies := rfl
@[simp] theorem State.abandonHold_consoles (s : State) : (s.abandonHold).consoles = s.consoles := rfl
@[simp] theorem State.abandonHold_hotkeys (s : State) : (s.abandonHold).hotkeys = s.hotkeys := rfl
@[simp] theorem State.abandonHold_presets (s : State) : (s.abandonHold).presets = s.presets := rfl
@[simp] theorem State.abandonHold_desk (s : State) : (s.abandonHold).desk = s.desk := rfl
@[simp] theorem State.abandonHold_ports (s : State) : (s.abandonHold).ports = s.ports := rfl
@[simp] theorem State.abandonHold_mergeLast (s : State) : (s.abandonHold).mergeLast = s.mergeLast := rfl
@[simp] theorem State.abandonHold_detector (s : State) : (s.abandonHold).detector = s.detector := rfl
@[simp] theorem State.abandonHold_keyStates (s : State) : (s.abandonHold).keyStates = s.keyStates := rfl
@[simp] theorem State.abandonHold_focus (s : State) : (s.abandonHold).focus = s.focus := rfl
@[simp] theorem State.abandonHold_glide (s : State) : (s.abandonHold).glide = s.glide := rfl
@[simp] theorem State.abandonHold_targets (s : State) : (s.abandonHold).targets = s.targets := rfl
@[simp] theorem State.abandonHold_deskState (s : State) : (s.abandonHold).deskState = s.deskState := rfl
@[simp] theorem State.abandonHold_idleTimer (s : State) : (s.abandonHold).idleTimer = s.idleTimer := rfl
@[simp] theorem State.abandonHold_heads (s : State) : (s.abandonHold).heads = s.heads := rfl
@[simp] theorem State.abandonHold_displays (s : State) : (s.abandonHold).displays = s.displays := rfl
@[simp] theorem State.abandonHold_windows (s : State) : (s.abandonHold).windows = s.windows := rfl
@[simp] theorem State.abandonHold_ctrlLast (s : State) : (s.abandonHold).ctrlLast = s.ctrlLast := rfl
@[simp] theorem State.abandonHold_executing (s : State) : (s.abandonHold).executing = s.executing := rfl
@[simp] theorem State.abandonHold_notices (s : State) : (s.abandonHold).notices = s.notices := rfl
@[simp] theorem State.abandonHold_subscribers (s : State) : (s.abandonHold).subscribers = s.subscribers := rfl

/-! ### recordRegion -/

@[simp] theorem State.recordRegion_pending (s : State) : (s.recordRegion).pending = s.pending := rfl
@[simp] theorem State.recordRegion_sent (s : State) : (s.recordRegion).sent = s.sent := rfl
@[simp] theorem State.recordRegion_resetAsserted (s : State) : (s.recordRegion).resetAsserted = s.resetAsserted := rfl
@[simp] theorem State.recordRegion_cfgt (s : State) : (s.recordRegion).cfgt = s.cfgt := rfl
@[simp] theorem State.recordRegion_lockStrap (s : State) : (s.recordRegion).lockStrap = s.lockStrap := rfl
@[simp] theorem State.recordRegion_active (s : State) : (s.recordRegion).active = s.active := rfl
@[simp] theorem State.recordRegion_edit (s : State) : (s.recordRegion).edit = s.edit := rfl
@[simp] theorem State.recordRegion_holdOwner (s : State) : (s.recordRegion).holdOwner = s.holdOwner := rfl
@[simp] theorem State.recordRegion_budgets (s : State) : (s.recordRegion).budgets = s.budgets := rfl
@[simp] theorem State.recordRegion_policies (s : State) : (s.recordRegion).policies = s.policies := rfl
@[simp] theorem State.recordRegion_consoles (s : State) : (s.recordRegion).consoles = s.consoles := rfl
@[simp] theorem State.recordRegion_hotkeys (s : State) : (s.recordRegion).hotkeys = s.hotkeys := rfl
@[simp] theorem State.recordRegion_presets (s : State) : (s.recordRegion).presets = s.presets := rfl
@[simp] theorem State.recordRegion_desk (s : State) : (s.recordRegion).desk = s.desk := rfl
@[simp] theorem State.recordRegion_ports (s : State) : (s.recordRegion).ports = s.ports := rfl
@[simp] theorem State.recordRegion_mergeLast (s : State) : (s.recordRegion).mergeLast = s.mergeLast := rfl
@[simp] theorem State.recordRegion_detector (s : State) : (s.recordRegion).detector = s.detector := rfl
@[simp] theorem State.recordRegion_keyStates (s : State) : (s.recordRegion).keyStates = s.keyStates := rfl
@[simp] theorem State.recordRegion_glide (s : State) : (s.recordRegion).glide = s.glide := rfl
@[simp] theorem State.recordRegion_targets (s : State) : (s.recordRegion).targets = s.targets := rfl
@[simp] theorem State.recordRegion_deskState (s : State) : (s.recordRegion).deskState = s.deskState := rfl
@[simp] theorem State.recordRegion_idleTimer (s : State) : (s.recordRegion).idleTimer = s.idleTimer := rfl
@[simp] theorem State.recordRegion_heads (s : State) : (s.recordRegion).heads = s.heads := rfl
@[simp] theorem State.recordRegion_displays (s : State) : (s.recordRegion).displays = s.displays := rfl
@[simp] theorem State.recordRegion_windows (s : State) : (s.recordRegion).windows = s.windows := rfl
@[simp] theorem State.recordRegion_ctrlLast (s : State) : (s.recordRegion).ctrlLast = s.ctrlLast := rfl
@[simp] theorem State.recordRegion_executing (s : State) : (s.recordRegion).executing = s.executing := rfl
@[simp] theorem State.recordRegion_notices (s : State) : (s.recordRegion).notices = s.notices := rfl
@[simp] theorem State.recordRegion_subscribers (s : State) : (s.recordRegion).subscribers = s.subscribers := rfl

/-! ### warp -/

@[simp] theorem State.warp_pending (q : Nat × Nat) (s : State) : (s.warp q).pending = s.pending := rfl
@[simp] theorem State.warp_sent (q : Nat × Nat) (s : State) : (s.warp q).sent = s.sent := rfl
@[simp] theorem State.warp_resetAsserted (q : Nat × Nat) (s : State) : (s.warp q).resetAsserted = s.resetAsserted := rfl
@[simp] theorem State.warp_cfgt (q : Nat × Nat) (s : State) : (s.warp q).cfgt = s.cfgt := rfl
@[simp] theorem State.warp_lockStrap (q : Nat × Nat) (s : State) : (s.warp q).lockStrap = s.lockStrap := rfl
@[simp] theorem State.warp_active (q : Nat × Nat) (s : State) : (s.warp q).active = s.active := rfl
@[simp] theorem State.warp_edit (q : Nat × Nat) (s : State) : (s.warp q).edit = s.edit := rfl
@[simp] theorem State.warp_holdOwner (q : Nat × Nat) (s : State) : (s.warp q).holdOwner = s.holdOwner := rfl
@[simp] theorem State.warp_budgets (q : Nat × Nat) (s : State) : (s.warp q).budgets = s.budgets := rfl
@[simp] theorem State.warp_policies (q : Nat × Nat) (s : State) : (s.warp q).policies = s.policies := rfl
@[simp] theorem State.warp_consoles (q : Nat × Nat) (s : State) : (s.warp q).consoles = s.consoles := rfl
@[simp] theorem State.warp_hotkeys (q : Nat × Nat) (s : State) : (s.warp q).hotkeys = s.hotkeys := rfl
@[simp] theorem State.warp_presets (q : Nat × Nat) (s : State) : (s.warp q).presets = s.presets := rfl
@[simp] theorem State.warp_desk (q : Nat × Nat) (s : State) : (s.warp q).desk = s.desk := rfl
@[simp] theorem State.warp_ports (q : Nat × Nat) (s : State) : (s.warp q).ports = s.ports := rfl
@[simp] theorem State.warp_mergeLast (q : Nat × Nat) (s : State) : (s.warp q).mergeLast = s.mergeLast := rfl
@[simp] theorem State.warp_detector (q : Nat × Nat) (s : State) : (s.warp q).detector = s.detector := rfl
@[simp] theorem State.warp_keyStates (q : Nat × Nat) (s : State) : (s.warp q).keyStates = s.keyStates := rfl
@[simp] theorem State.warp_targets (q : Nat × Nat) (s : State) : (s.warp q).targets = s.targets := rfl
@[simp] theorem State.warp_deskState (q : Nat × Nat) (s : State) : (s.warp q).deskState = s.deskState := rfl
@[simp] theorem State.warp_idleTimer (q : Nat × Nat) (s : State) : (s.warp q).idleTimer = s.idleTimer := rfl
@[simp] theorem State.warp_heads (q : Nat × Nat) (s : State) : (s.warp q).heads = s.heads := rfl
@[simp] theorem State.warp_displays (q : Nat × Nat) (s : State) : (s.warp q).displays = s.displays := rfl
@[simp] theorem State.warp_windows (q : Nat × Nat) (s : State) : (s.warp q).windows = s.windows := rfl
@[simp] theorem State.warp_ctrlLast (q : Nat × Nat) (s : State) : (s.warp q).ctrlLast = s.ctrlLast := rfl
@[simp] theorem State.warp_executing (q : Nat × Nat) (s : State) : (s.warp q).executing = s.executing := rfl
@[simp] theorem State.warp_notices (q : Nat × Nat) (s : State) : (s.warp q).notices = s.notices := rfl
@[simp] theorem State.warp_subscribers (q : Nat × Nat) (s : State) : (s.warp q).subscribers = s.subscribers := rfl

/-! ### detach -/

@[simp] theorem State.detach_pending (t : Target) (s : State) : (s.detach t).pending = s.pending := rfl
@[simp] theorem State.detach_sent (t : Target) (s : State) : (s.detach t).sent = s.sent := rfl
@[simp] theorem State.detach_resetAsserted (t : Target) (s : State) : (s.detach t).resetAsserted = s.resetAsserted := rfl
@[simp] theorem State.detach_cfgt (t : Target) (s : State) : (s.detach t).cfgt = s.cfgt := rfl
@[simp] theorem State.detach_lockStrap (t : Target) (s : State) : (s.detach t).lockStrap = s.lockStrap := rfl
@[simp] theorem State.detach_active (t : Target) (s : State) : (s.detach t).active = s.active := rfl
@[simp] theorem State.detach_edit (t : Target) (s : State) : (s.detach t).edit = s.edit := rfl
@[simp] theorem State.detach_holdOwner (t : Target) (s : State) : (s.detach t).holdOwner = s.holdOwner := rfl
@[simp] theorem State.detach_budgets (t : Target) (s : State) : (s.detach t).budgets = s.budgets := rfl
@[simp] theorem State.detach_policies (t : Target) (s : State) : (s.detach t).policies = s.policies := rfl
@[simp] theorem State.detach_consoles (t : Target) (s : State) : (s.detach t).consoles = s.consoles := rfl
@[simp] theorem State.detach_hotkeys (t : Target) (s : State) : (s.detach t).hotkeys = s.hotkeys := rfl
@[simp] theorem State.detach_presets (t : Target) (s : State) : (s.detach t).presets = s.presets := rfl
@[simp] theorem State.detach_desk (t : Target) (s : State) : (s.detach t).desk = s.desk := rfl
@[simp] theorem State.detach_ports (t : Target) (s : State) : (s.detach t).ports = s.ports := rfl
@[simp] theorem State.detach_mergeLast (t : Target) (s : State) : (s.detach t).mergeLast = s.mergeLast := rfl
@[simp] theorem State.detach_detector (t : Target) (s : State) : (s.detach t).detector = s.detector := rfl
@[simp] theorem State.detach_keyStates (t : Target) (s : State) : (s.detach t).keyStates = s.keyStates := rfl
@[simp] theorem State.detach_targets (t : Target) (s : State) : (s.detach t).targets = s.targets := rfl
@[simp] theorem State.detach_deskState (t : Target) (s : State) : (s.detach t).deskState = s.deskState := rfl
@[simp] theorem State.detach_idleTimer (t : Target) (s : State) : (s.detach t).idleTimer = s.idleTimer := rfl
@[simp] theorem State.detach_heads (t : Target) (s : State) : (s.detach t).heads = s.heads := rfl
@[simp] theorem State.detach_displays (t : Target) (s : State) : (s.detach t).displays = s.displays := rfl
@[simp] theorem State.detach_windows (t : Target) (s : State) : (s.detach t).windows = s.windows := rfl
@[simp] theorem State.detach_ctrlLast (t : Target) (s : State) : (s.detach t).ctrlLast = s.ctrlLast := rfl
@[simp] theorem State.detach_executing (t : Target) (s : State) : (s.detach t).executing = s.executing := rfl
@[simp] theorem State.detach_notices (t : Target) (s : State) : (s.detach t).notices = s.notices := rfl
@[simp] theorem State.detach_subscribers (t : Target) (s : State) : (s.detach t).subscribers = s.subscribers := rfl

/-! ### place -/

@[simp] theorem State.place_pending (q : Nat × Nat) (pr : Option Pressure) (s : State) : (s.place q pr).pending = s.pending := rfl
@[simp] theorem State.place_sent (q : Nat × Nat) (pr : Option Pressure) (s : State) : (s.place q pr).sent = s.sent := rfl
@[simp] theorem State.place_resetAsserted (q : Nat × Nat) (pr : Option Pressure) (s : State) : (s.place q pr).resetAsserted = s.resetAsserted := rfl
@[simp] theorem State.place_cfgt (q : Nat × Nat) (pr : Option Pressure) (s : State) : (s.place q pr).cfgt = s.cfgt := rfl
@[simp] theorem State.place_lockStrap (q : Nat × Nat) (pr : Option Pressure) (s : State) : (s.place q pr).lockStrap = s.lockStrap := rfl
@[simp] theorem State.place_active (q : Nat × Nat) (pr : Option Pressure) (s : State) : (s.place q pr).active = s.active := rfl
@[simp] theorem State.place_edit (q : Nat × Nat) (pr : Option Pressure) (s : State) : (s.place q pr).edit = s.edit := rfl
@[simp] theorem State.place_holdOwner (q : Nat × Nat) (pr : Option Pressure) (s : State) : (s.place q pr).holdOwner = s.holdOwner := rfl
@[simp] theorem State.place_budgets (q : Nat × Nat) (pr : Option Pressure) (s : State) : (s.place q pr).budgets = s.budgets := rfl
@[simp] theorem State.place_policies (q : Nat × Nat) (pr : Option Pressure) (s : State) : (s.place q pr).policies = s.policies := rfl
@[simp] theorem State.place_consoles (q : Nat × Nat) (pr : Option Pressure) (s : State) : (s.place q pr).consoles = s.consoles := rfl
@[simp] theorem State.place_hotkeys (q : Nat × Nat) (pr : Option Pressure) (s : State) : (s.place q pr).hotkeys = s.hotkeys := rfl
@[simp] theorem State.place_presets (q : Nat × Nat) (pr : Option Pressure) (s : State) : (s.place q pr).presets = s.presets := rfl
@[simp] theorem State.place_desk (q : Nat × Nat) (pr : Option Pressure) (s : State) : (s.place q pr).desk = s.desk := rfl
@[simp] theorem State.place_ports (q : Nat × Nat) (pr : Option Pressure) (s : State) : (s.place q pr).ports = s.ports := rfl
@[simp] theorem State.place_mergeLast (q : Nat × Nat) (pr : Option Pressure) (s : State) : (s.place q pr).mergeLast = s.mergeLast := rfl
@[simp] theorem State.place_detector (q : Nat × Nat) (pr : Option Pressure) (s : State) : (s.place q pr).detector = s.detector := rfl
@[simp] theorem State.place_keyStates (q : Nat × Nat) (pr : Option Pressure) (s : State) : (s.place q pr).keyStates = s.keyStates := rfl
@[simp] theorem State.place_focus (q : Nat × Nat) (pr : Option Pressure) (s : State) : (s.place q pr).focus = s.focus := rfl
@[simp] theorem State.place_glide (q : Nat × Nat) (pr : Option Pressure) (s : State) : (s.place q pr).glide = { s.glide with px := q.1, py := q.2, pressure := pr } := rfl
@[simp] theorem State.place_targets (q : Nat × Nat) (pr : Option Pressure) (s : State) : (s.place q pr).targets = s.targets := rfl
@[simp] theorem State.place_deskState (q : Nat × Nat) (pr : Option Pressure) (s : State) : (s.place q pr).deskState = s.deskState := rfl
@[simp] theorem State.place_idleTimer (q : Nat × Nat) (pr : Option Pressure) (s : State) : (s.place q pr).idleTimer = s.idleTimer := rfl
@[simp] theorem State.place_heads (q : Nat × Nat) (pr : Option Pressure) (s : State) : (s.place q pr).heads = s.heads := rfl
@[simp] theorem State.place_displays (q : Nat × Nat) (pr : Option Pressure) (s : State) : (s.place q pr).displays = s.displays := rfl
@[simp] theorem State.place_windows (q : Nat × Nat) (pr : Option Pressure) (s : State) : (s.place q pr).windows = s.windows := rfl
@[simp] theorem State.place_ctrlLast (q : Nat × Nat) (pr : Option Pressure) (s : State) : (s.place q pr).ctrlLast = s.ctrlLast := rfl
@[simp] theorem State.place_executing (q : Nat × Nat) (pr : Option Pressure) (s : State) : (s.place q pr).executing = s.executing := rfl
@[simp] theorem State.place_notices (q : Nat × Nat) (pr : Option Pressure) (s : State) : (s.place q pr).notices = s.notices := rfl
@[simp] theorem State.place_subscribers (q : Nat × Nat) (pr : Option Pressure) (s : State) : (s.place q pr).subscribers = s.subscribers := rfl

/-! ### dropReply -/

@[simp] theorem State.dropReply_pending (t : Target) (s : State) : (s.dropReply t).pending = s.pending := rfl
@[simp] theorem State.dropReply_sent (t : Target) (s : State) : (s.dropReply t).sent = s.sent := rfl
@[simp] theorem State.dropReply_resetAsserted (t : Target) (s : State) : (s.dropReply t).resetAsserted = s.resetAsserted := rfl
@[simp] theorem State.dropReply_cfgt (t : Target) (s : State) : (s.dropReply t).cfgt = s.cfgt := rfl
@[simp] theorem State.dropReply_lockStrap (t : Target) (s : State) : (s.dropReply t).lockStrap = s.lockStrap := rfl
@[simp] theorem State.dropReply_active (t : Target) (s : State) : (s.dropReply t).active = s.active := rfl
@[simp] theorem State.dropReply_edit (t : Target) (s : State) : (s.dropReply t).edit = s.edit := rfl
@[simp] theorem State.dropReply_holdOwner (t : Target) (s : State) : (s.dropReply t).holdOwner = s.holdOwner := rfl
@[simp] theorem State.dropReply_budgets (t : Target) (s : State) : (s.dropReply t).budgets = s.budgets := rfl
@[simp] theorem State.dropReply_policies (t : Target) (s : State) : (s.dropReply t).policies = s.policies := rfl
@[simp] theorem State.dropReply_consoles (t : Target) (s : State) : (s.dropReply t).consoles = s.consoles := rfl
@[simp] theorem State.dropReply_hotkeys (t : Target) (s : State) : (s.dropReply t).hotkeys = s.hotkeys := rfl
@[simp] theorem State.dropReply_presets (t : Target) (s : State) : (s.dropReply t).presets = s.presets := rfl
@[simp] theorem State.dropReply_desk (t : Target) (s : State) : (s.dropReply t).desk = s.desk := rfl
@[simp] theorem State.dropReply_ports (t : Target) (s : State) : (s.dropReply t).ports = s.ports := rfl
@[simp] theorem State.dropReply_mergeLast (t : Target) (s : State) : (s.dropReply t).mergeLast = s.mergeLast := rfl
@[simp] theorem State.dropReply_detector (t : Target) (s : State) : (s.dropReply t).detector = s.detector := rfl
@[simp] theorem State.dropReply_keyStates (t : Target) (s : State) : (s.dropReply t).keyStates = s.keyStates := rfl
@[simp] theorem State.dropReply_focus (t : Target) (s : State) : (s.dropReply t).focus = s.focus := rfl
@[simp] theorem State.dropReply_glide (t : Target) (s : State) : (s.dropReply t).glide = s.glide := rfl
@[simp] theorem State.dropReply_targets (t : Target) (s : State) : (s.dropReply t).targets = s.targets := rfl
@[simp] theorem State.dropReply_deskState (t : Target) (s : State) : (s.dropReply t).deskState = s.deskState := rfl
@[simp] theorem State.dropReply_idleTimer (t : Target) (s : State) : (s.dropReply t).idleTimer = s.idleTimer := rfl
@[simp] theorem State.dropReply_heads (t : Target) (s : State) : (s.dropReply t).heads = s.heads := rfl
@[simp] theorem State.dropReply_displays (t : Target) (s : State) : (s.dropReply t).displays = s.displays := rfl
@[simp] theorem State.dropReply_windows (t : Target) (s : State) : (s.dropReply t).windows = s.windows := rfl
@[simp] theorem State.dropReply_ctrlLast (t : Target) (s : State) : (s.dropReply t).ctrlLast = s.ctrlLast := rfl
@[simp] theorem State.dropReply_executing (t : Target) (s : State) : (s.dropReply t).executing = s.executing.map (Execution.afterTeardown t) := rfl
@[simp] theorem State.dropReply_notices (t : Target) (s : State) : (s.dropReply t).notices = s.notices := rfl
@[simp] theorem State.dropReply_subscribers (t : Target) (s : State) : (s.dropReply t).subscribers = s.subscribers := rfl

/-! ### deskResetWake -/

@[simp] theorem State.deskResetWake_pending (s : State) : (s.deskResetWake).pending = s.pending := rfl
@[simp] theorem State.deskResetWake_sent (s : State) : (s.deskResetWake).sent = s.sent := rfl
@[simp] theorem State.deskResetWake_resetAsserted (s : State) : (s.deskResetWake).resetAsserted = s.resetAsserted := rfl
@[simp] theorem State.deskResetWake_cfgt (s : State) : (s.deskResetWake).cfgt = s.cfgt := rfl
@[simp] theorem State.deskResetWake_lockStrap (s : State) : (s.deskResetWake).lockStrap = s.lockStrap := rfl
@[simp] theorem State.deskResetWake_active (s : State) : (s.deskResetWake).active = s.active := rfl
@[simp] theorem State.deskResetWake_edit (s : State) : (s.deskResetWake).edit = s.edit := rfl
@[simp] theorem State.deskResetWake_holdOwner (s : State) : (s.deskResetWake).holdOwner = s.holdOwner := rfl
@[simp] theorem State.deskResetWake_budgets (s : State) : (s.deskResetWake).budgets = s.budgets := rfl
@[simp] theorem State.deskResetWake_policies (s : State) : (s.deskResetWake).policies = s.policies := rfl
@[simp] theorem State.deskResetWake_consoles (s : State) : (s.deskResetWake).consoles = s.consoles := rfl
@[simp] theorem State.deskResetWake_hotkeys (s : State) : (s.deskResetWake).hotkeys = s.hotkeys := rfl
@[simp] theorem State.deskResetWake_presets (s : State) : (s.deskResetWake).presets = s.presets := rfl
@[simp] theorem State.deskResetWake_desk (s : State) : (s.deskResetWake).desk = s.desk := rfl
@[simp] theorem State.deskResetWake_ports (s : State) : (s.deskResetWake).ports = s.ports := rfl
@[simp] theorem State.deskResetWake_mergeLast (s : State) : (s.deskResetWake).mergeLast = s.mergeLast := rfl
@[simp] theorem State.deskResetWake_detector (s : State) : (s.deskResetWake).detector = s.detector := rfl
@[simp] theorem State.deskResetWake_keyStates (s : State) : (s.deskResetWake).keyStates = s.keyStates := rfl
@[simp] theorem State.deskResetWake_focus (s : State) : (s.deskResetWake).focus = s.focus := rfl
@[simp] theorem State.deskResetWake_glide (s : State) : (s.deskResetWake).glide = s.glide := rfl
@[simp] theorem State.deskResetWake_targets (s : State) : (s.deskResetWake).targets = updAll s.targets fun _ p => p.cancelWake := rfl
@[simp] theorem State.deskResetWake_deskState (s : State) : (s.deskResetWake).deskState = s.deskState := rfl
@[simp] theorem State.deskResetWake_idleTimer (s : State) : (s.deskResetWake).idleTimer = s.idleTimer := rfl
@[simp] theorem State.deskResetWake_heads (s : State) : (s.deskResetWake).heads = s.heads := rfl
@[simp] theorem State.deskResetWake_displays (s : State) : (s.deskResetWake).displays = s.displays := rfl
@[simp] theorem State.deskResetWake_windows (s : State) : (s.deskResetWake).windows = s.windows := rfl
@[simp] theorem State.deskResetWake_ctrlLast (s : State) : (s.deskResetWake).ctrlLast = s.ctrlLast := rfl
@[simp] theorem State.deskResetWake_executing (s : State) : (s.deskResetWake).executing = s.executing := rfl
@[simp] theorem State.deskResetWake_notices (s : State) : (s.deskResetWake).notices = s.notices := rfl
@[simp] theorem State.deskResetWake_subscribers (s : State) : (s.deskResetWake).subscribers = s.subscribers := rfl

/-! ### deskResetWindows -/

@[simp] theorem State.deskResetWindows_pending (s : State) : (s.deskResetWindows).pending = s.pending := rfl
@[simp] theorem State.deskResetWindows_sent (s : State) : (s.deskResetWindows).sent = s.sent := rfl
@[simp] theorem State.deskResetWindows_resetAsserted (s : State) : (s.deskResetWindows).resetAsserted = s.resetAsserted := rfl
@[simp] theorem State.deskResetWindows_cfgt (s : State) : (s.deskResetWindows).cfgt = s.cfgt := rfl
@[simp] theorem State.deskResetWindows_lockStrap (s : State) : (s.deskResetWindows).lockStrap = s.lockStrap := rfl
@[simp] theorem State.deskResetWindows_active (s : State) : (s.deskResetWindows).active = s.active := rfl
@[simp] theorem State.deskResetWindows_edit (s : State) : (s.deskResetWindows).edit = s.edit := rfl
@[simp] theorem State.deskResetWindows_holdOwner (s : State) : (s.deskResetWindows).holdOwner = s.holdOwner := rfl
@[simp] theorem State.deskResetWindows_budgets (s : State) : (s.deskResetWindows).budgets = s.budgets := rfl
@[simp] theorem State.deskResetWindows_policies (s : State) : (s.deskResetWindows).policies = s.policies := rfl
@[simp] theorem State.deskResetWindows_consoles (s : State) : (s.deskResetWindows).consoles = s.consoles := rfl
@[simp] theorem State.deskResetWindows_hotkeys (s : State) : (s.deskResetWindows).hotkeys = s.hotkeys := rfl
@[simp] theorem State.deskResetWindows_presets (s : State) : (s.deskResetWindows).presets = s.presets := rfl
@[simp] theorem State.deskResetWindows_desk (s : State) : (s.deskResetWindows).desk = s.desk := rfl
@[simp] theorem State.deskResetWindows_ports (s : State) : (s.deskResetWindows).ports = s.ports := rfl
@[simp] theorem State.deskResetWindows_mergeLast (s : State) : (s.deskResetWindows).mergeLast = s.mergeLast := rfl
@[simp] theorem State.deskResetWindows_detector (s : State) : (s.deskResetWindows).detector = s.detector := rfl
@[simp] theorem State.deskResetWindows_keyStates (s : State) : (s.deskResetWindows).keyStates = s.keyStates := rfl
@[simp] theorem State.deskResetWindows_focus (s : State) : (s.deskResetWindows).focus = s.focus := rfl
@[simp] theorem State.deskResetWindows_glide (s : State) : (s.deskResetWindows).glide = s.glide := rfl
@[simp] theorem State.deskResetWindows_targets (s : State) : (s.deskResetWindows).targets = s.targets := rfl
@[simp] theorem State.deskResetWindows_deskState (s : State) : (s.deskResetWindows).deskState = s.deskState := rfl
@[simp] theorem State.deskResetWindows_idleTimer (s : State) : (s.deskResetWindows).idleTimer = s.idleTimer := rfl
@[simp] theorem State.deskResetWindows_heads (s : State) : (s.deskResetWindows).heads = s.heads := rfl
@[simp] theorem State.deskResetWindows_displays (s : State) : (s.deskResetWindows).displays = s.displays := rfl
@[simp] theorem State.deskResetWindows_ctrlLast (s : State) : (s.deskResetWindows).ctrlLast = s.ctrlLast := rfl
@[simp] theorem State.deskResetWindows_executing (s : State) : (s.deskResetWindows).executing = s.executing := rfl
@[simp] theorem State.deskResetWindows_notices (s : State) : (s.deskResetWindows).notices = s.notices := rfl
@[simp] theorem State.deskResetWindows_subscribers (s : State) : (s.deskResetWindows).subscribers = s.subscribers := rfl

/-! ### deskResetNotices -/

@[simp] theorem State.deskResetNotices_pending (s : State) : (s.deskResetNotices).pending = s.pending := rfl
@[simp] theorem State.deskResetNotices_sent (s : State) : (s.deskResetNotices).sent = s.sent := rfl
@[simp] theorem State.deskResetNotices_resetAsserted (s : State) : (s.deskResetNotices).resetAsserted = s.resetAsserted := rfl
@[simp] theorem State.deskResetNotices_cfgt (s : State) : (s.deskResetNotices).cfgt = s.cfgt := rfl
@[simp] theorem State.deskResetNotices_lockStrap (s : State) : (s.deskResetNotices).lockStrap = s.lockStrap := rfl
@[simp] theorem State.deskResetNotices_active (s : State) : (s.deskResetNotices).active = s.active := rfl
@[simp] theorem State.deskResetNotices_edit (s : State) : (s.deskResetNotices).edit = s.edit := rfl
@[simp] theorem State.deskResetNotices_holdOwner (s : State) : (s.deskResetNotices).holdOwner = s.holdOwner := rfl
@[simp] theorem State.deskResetNotices_budgets (s : State) : (s.deskResetNotices).budgets = s.budgets := rfl
@[simp] theorem State.deskResetNotices_policies (s : State) : (s.deskResetNotices).policies = s.policies := rfl
@[simp] theorem State.deskResetNotices_consoles (s : State) : (s.deskResetNotices).consoles = s.consoles := rfl
@[simp] theorem State.deskResetNotices_hotkeys (s : State) : (s.deskResetNotices).hotkeys = s.hotkeys := rfl
@[simp] theorem State.deskResetNotices_presets (s : State) : (s.deskResetNotices).presets = s.presets := rfl
@[simp] theorem State.deskResetNotices_desk (s : State) : (s.deskResetNotices).desk = s.desk := rfl
@[simp] theorem State.deskResetNotices_ports (s : State) : (s.deskResetNotices).ports = s.ports := rfl
@[simp] theorem State.deskResetNotices_mergeLast (s : State) : (s.deskResetNotices).mergeLast = s.mergeLast := rfl
@[simp] theorem State.deskResetNotices_detector (s : State) : (s.deskResetNotices).detector = s.detector := rfl
@[simp] theorem State.deskResetNotices_keyStates (s : State) : (s.deskResetNotices).keyStates = s.keyStates := rfl
@[simp] theorem State.deskResetNotices_focus (s : State) : (s.deskResetNotices).focus = s.focus := rfl
@[simp] theorem State.deskResetNotices_glide (s : State) : (s.deskResetNotices).glide = s.glide := rfl
@[simp] theorem State.deskResetNotices_targets (s : State) : (s.deskResetNotices).targets = s.targets := rfl
@[simp] theorem State.deskResetNotices_deskState (s : State) : (s.deskResetNotices).deskState = s.deskState := rfl
@[simp] theorem State.deskResetNotices_idleTimer (s : State) : (s.deskResetNotices).idleTimer = s.idleTimer := rfl
@[simp] theorem State.deskResetNotices_heads (s : State) : (s.deskResetNotices).heads = s.heads := rfl
@[simp] theorem State.deskResetNotices_displays (s : State) : (s.deskResetNotices).displays = s.displays := rfl
@[simp] theorem State.deskResetNotices_windows (s : State) : (s.deskResetNotices).windows = s.windows := rfl
@[simp] theorem State.deskResetNotices_ctrlLast (s : State) : (s.deskResetNotices).ctrlLast = s.ctrlLast := rfl
@[simp] theorem State.deskResetNotices_executing (s : State) : (s.deskResetNotices).executing = s.executing := rfl
@[simp] theorem State.deskResetNotices_subscribers (s : State) : (s.deskResetNotices).subscribers = s.subscribers := rfl

/-! ### activity -/

@[simp] theorem State.activity_pending (s : State) : (s.activity).pending = s.pending := rfl
@[simp] theorem State.activity_sent (s : State) : (s.activity).sent = s.sent := rfl
@[simp] theorem State.activity_resetAsserted (s : State) : (s.activity).resetAsserted = s.resetAsserted := rfl
@[simp] theorem State.activity_cfgt (s : State) : (s.activity).cfgt = s.cfgt := rfl
@[simp] theorem State.activity_lockStrap (s : State) : (s.activity).lockStrap = s.lockStrap := rfl
@[simp] theorem State.activity_active (s : State) : (s.activity).active = s.active := rfl
@[simp] theorem State.activity_edit (s : State) : (s.activity).edit = s.edit := rfl
@[simp] theorem State.activity_holdOwner (s : State) : (s.activity).holdOwner = s.holdOwner := rfl
@[simp] theorem State.activity_budgets (s : State) : (s.activity).budgets = s.budgets := rfl
@[simp] theorem State.activity_policies (s : State) : (s.activity).policies = s.policies := rfl
@[simp] theorem State.activity_consoles (s : State) : (s.activity).consoles = s.consoles := rfl
@[simp] theorem State.activity_hotkeys (s : State) : (s.activity).hotkeys = s.hotkeys := rfl
@[simp] theorem State.activity_presets (s : State) : (s.activity).presets = s.presets := rfl
@[simp] theorem State.activity_desk (s : State) : (s.activity).desk = s.desk := rfl
@[simp] theorem State.activity_ports (s : State) : (s.activity).ports = s.ports := rfl
@[simp] theorem State.activity_mergeLast (s : State) : (s.activity).mergeLast = s.mergeLast := rfl
@[simp] theorem State.activity_detector (s : State) : (s.activity).detector = s.detector := rfl
@[simp] theorem State.activity_keyStates (s : State) : (s.activity).keyStates = s.keyStates := rfl
@[simp] theorem State.activity_focus (s : State) : (s.activity).focus = s.focus := rfl
@[simp] theorem State.activity_glide (s : State) : (s.activity).glide = s.glide := rfl
@[simp] theorem State.activity_targets (s : State) : (s.activity).targets = s.targets := rfl
@[simp] theorem State.activity_deskState (s : State) : (s.activity).deskState = .awake := rfl
@[simp] theorem State.activity_heads (s : State) : (s.activity).heads = s.heads := rfl
@[simp] theorem State.activity_displays (s : State) : (s.activity).displays = s.displays := rfl
@[simp] theorem State.activity_windows (s : State) : (s.activity).windows = s.windows := rfl
@[simp] theorem State.activity_ctrlLast (s : State) : (s.activity).ctrlLast = s.ctrlLast := rfl
@[simp] theorem State.activity_executing (s : State) : (s.activity).executing = s.executing := rfl
@[simp] theorem State.activity_notices (s : State) : (s.activity).notices = s.notices := rfl
@[simp] theorem State.activity_subscribers (s : State) : (s.activity).subscribers = s.subscribers := rfl

end Sys2Proof.Machine
end

