-- ==== Sys2Proof/Laws/Ops.lean ====
section
/-! SUPPORT. What each shared operation can do, said once: the raise, frames sent, offers and the end of a port's event, wake
requests, the clearing of input, what a head measures, a command executed in parts; and that a focus change or a re-evaluation touches no more than `State.FocusChangeOnly` allows. -/

namespace Sys2Proof.Machine

/-! ## Outcomes -/

theorem running_eq (s : State) (f : State → State) (h : s.resetAsserted = false) : running s f = .next (f s) := by simp [running, h]

theorem running_asserted (s : State) (f : State → State) (h : s.resetAsserted = true) : running s f = .next s := by simp [running, h]

/-! ## The raise -/

theorem NoticeKind.index_injective : Function.Injective NoticeKind.index := by
  intro a b h; cases a <;> cases b <;> first | rfl | (exact absurd h (by decide))

theorem State.raise_subjects (k k' : NoticeKind) (i : Fin 16) (s : State) :
    (s.raise k i).subjects k' = if k' = k then adjoin (s.subjects k) i else s.subjects k' := by
  unfold State.subjects State.raise
  simp only [upd_get_eq]
  by_cases h : k' = k
  · subst h; rw [if_pos rfl, if_pos rfl]; rfl
  · have : k'.index ≠ k.index := fun e => h (NoticeKind.index_injective e)
    simp [h, this]

/-- A raise leaves its subject in the kind's set, and takes no subject out of any set. -/
theorem State.raise_has (k k' : NoticeKind) (i j : Fin 16) (s : State) :
    has ((s.raise k i).subjects k') j = (has (s.subjects k') j || decide (k' = k ∧ j = i)) := by
  rw [State.raise_subjects]
  by_cases h : k' = k
  · subst h; simp
  · simp [h]

/-! ## What a focus change may touch -/

theorem State.FocusChangeOnly.refl (s : State) : s.FocusChangeOnly s :=
  ⟨rfl, fun _ => rfl, fun _ => ⟨rfl, rfl, rfl, rfl, rfl, .inl rfl⟩⟩

theorem State.FocusChangeOnly.trans {a b c : State} (h : a.FocusChangeOnly b) (k : b.FocusChangeOnly c) : a.FocusChangeOnly c := by
  obtain ⟨h1, h2, h3⟩ := h
  obtain ⟨k1, k2, k3⟩ := k
  refine ⟨?_, fun p => ?_, fun t => ?_⟩
  · rw [k1, h1]
  · rw [k2 p, h2 p]
  · obtain ⟨a1, a2, a3, a4, a5, a6⟩ := h3 t
    obtain ⟨b1, b2, b3, b4, b5, b6⟩ := k3 t
    refine ⟨b1.trans a1, b2.trans a2, b3.trans a3, b4.trans a4, b5.trans a5, ?_⟩
    rcases a6 with a6 | ⟨a6, a7⟩ <;> rcases b6 with b6 | ⟨b6, b7⟩
    · exact .inl (b6.trans a6)
    · exact .inr ⟨a6 ▸ b6, b7⟩
    · exact .inr ⟨a6, b6.trans a7⟩
    · exact absurd (a7.symm.trans b6) (by decide)

/-- A port's change that keeps its settings, apart from a wake begun. -/
def TargetPort.KeepsSettings (p q : TargetPort) : Prop :=
  q.attached = p.attached ∧ q.mode = p.mode ∧ q.credit = p.credit ∧ q.leds = p.leds ∧ q.inbox = p.inbox ∧
    (q.power = p.power ∨ p.power = .suspended ∧ q.power = .waking)

theorem TargetPort.KeepsSettings.refl (p : TargetPort) : p.KeepsSettings p := ⟨rfl, rfl, rfl, rfl, rfl, .inl rfl⟩

theorem State.modTarget_focusOnly (t : Target) (f : TargetPort → TargetPort) (s : State) (h : s.targets[t].KeepsSettings (f s.targets[t])) :
    s.FocusChangeOnly (s.modTarget t f) := by
  refine ⟨rfl, fun _ => rfl, fun u => ?_⟩
  rw [State.modTarget_targets, upd_get_eq]
  split
  · rename_i e; subst e; exact h
  · exact TargetPort.KeepsSettings.refl _

theorem State.raise_focusOnly (k : NoticeKind) (i : Fin 16) (s : State) : s.FocusChangeOnly (s.raise k i) :=
  ⟨rfl, fun _ => rfl, fun _ => TargetPort.KeepsSettings.refl _⟩

theorem State.sendTo_focusOnly (t : Target) (f : OutFrame) (s : State) : s.FocusChangeOnly (s.sendTo t f) := by
  unfold State.sendTo
  split
  · exact ⟨rfl, fun _ => rfl, fun _ => TargetPort.KeepsSettings.refl _⟩
  · exact .refl s

theorem State.sendLeds_focusOnly (c : Port → Bool) (s : State) : s.FocusChangeOnly (s.sendLeds c) :=
  ⟨rfl, fun _ => rfl, fun _ => TargetPort.KeepsSettings.refl _⟩

theorem State.modKeys_focusOnly (t : Target) (f : KeyState → KeyState) (s : State) : s.FocusChangeOnly (s.modKeys t f) :=
  ⟨rfl, fun _ => rfl, fun _ => TargetPort.KeepsSettings.refl _⟩

/-! ## Target ports -/

theorem TargetPort.offer_keeps (c : Nat) (r : Report) (p : TargetPort) : p.KeepsSettings (p.offer c r) := by
  unfold TargetPort.offer
  split <;> [skip; split] <;> exact ⟨rfl, rfl, rfl, rfl, rfl, .inl rfl⟩

theorem TargetPort.offerHold_keeps (r : Report) (p : TargetPort) : p.KeepsSettings (p.offerHold r) := by
  unfold TargetPort.offerHold
  repeat' split
  all_goals exact ⟨rfl, rfl, rfl, rfl, rfl, .inl rfl⟩

theorem TargetPort.KeepsSettings.trans {p q r : TargetPort} (h : p.KeepsSettings q) (k : q.KeepsSettings r) : p.KeepsSettings r := by
  obtain ⟨a1, a2, a3, a4, a5, a6⟩ := h
  obtain ⟨b1, b2, b3, b4, b5, b6⟩ := k
  refine ⟨b1.trans a1, b2.trans a2, b3.trans a3, b4.trans a4, b5.trans a5, ?_⟩
  rcases a6 with a6 | ⟨a6, a7⟩ <;> rcases b6 with b6 | ⟨b6, b7⟩
  · exact .inl (b6.trans a6)
  · exact .inr ⟨a6 ▸ b6, b7⟩
  · exact .inr ⟨a6, b6.trans a7⟩
  · exact absurd (a7.symm.trans b6) (by decide)

theorem TargetPort.homeDone_keeps (p : TargetPort) : p.KeepsSettings p.homeDone := by
  unfold TargetPort.homeDone; split <;> exact ⟨rfl, rfl, rfl, rfl, rfl, .inl rfl⟩

theorem TargetPort.nextSync_keeps (b : ButtonSet) (p : TargetPort) : p.KeepsSettings (p.nextSync b) := by
  unfold TargetPort.nextSync
  split
  · exact ⟨rfl, rfl, rfl, rfl, rfl, .inl rfl⟩
  · split <;> exact ⟨rfl, rfl, rfl, rfl, rfl, .inl rfl⟩
  all_goals exact .refl p

theorem TargetPort.syncStep_keeps (b : ButtonSet) (p : TargetPort) : p.KeepsSettings (p.syncStep b) := by
  unfold TargetPort.syncStep
  split
  · exact p.homeDone_keeps.trans (p.homeDone.nextSync_keeps b)
  · exact p.homeDone_keeps

theorem TargetPort.resyncStep_keeps (v : ModSet × List Key) (b : ButtonSet) (z : DeskSize) (p : TargetPort) :
    p.KeepsSettings (p.resyncStep v b z) := by
  unfold TargetPort.resyncStep
  split
  · dsimp only; split <;> exact ⟨rfl, rfl, rfl, rfl, rfl, .inl rfl⟩
  · exact .refl p

theorem TargetPort.stallStep_keeps (n : Nat) (p : TargetPort) : p.KeepsSettings (p.stallStep n) := by
  unfold TargetPort.stallStep
  repeat' split
  all_goals exact ⟨rfl, rfl, rfl, rfl, rfl, .inl rfl⟩

/-- The end of a port's event keeps attach state, mode, credit, LED state, inbox and power state. -/
theorem TargetPort.finish_keeps (v : ModSet × List Key) (b : ButtonSet) (z : DeskSize) (n : Nat) (p : TargetPort) :
    p.KeepsSettings (p.finish v b z n) :=
  (p.syncStep_keeps b).trans (((p.syncStep b).resyncStep_keeps v b z).trans (TargetPort.stallStep_keeps n _))

theorem TargetPort.requestSync_keeps (z : DeskSize) (p : TargetPort) : p.KeepsSettings (p.requestSync z) := by
  unfold TargetPort.requestSync
  split
  · exact .refl p
  · split <;> exact ⟨rfl, rfl, rfl, rfl, rfl, .inl rfl⟩

theorem TargetPort.abandonSync_keeps (p : TargetPort) : p.KeepsSettings p.abandonSync := by
  unfold TargetPort.abandonSync; split <;> exact ⟨rfl, rfl, rfl, rfl, rfl, .inl rfl⟩

/-! ## Offers and wake requests -/

theorem State.portEnd_focusOnly (t : Target) (s : State) : s.FocusChangeOnly (s.portEnd t) :=
  s.modTarget_focusOnly t _ (TargetPort.finish_keeps ..)

theorem State.offerReport_focusOnly (t : Target) (r : Report) (s : State) : s.FocusChangeOnly (s.offerReport t r) := by
  unfold State.offerReport
  split
  · refine .trans ?_ (State.portEnd_focusOnly t _)
    have h := s.modTarget_focusOnly t (TargetPort.offer s.desk.coalesce r) (TargetPort.offer_keeps ..)
    split
    · exact h.trans (State.raise_focusOnly ..)
    · exact h
  · exact s.modTarget_focusOnly t _ (TargetPort.offerHold_keeps ..)
  · exact .refl s
  · exact .refl s

theorem State.announceView_focusOnly (v : ModSet × List Key) (t : Target) (s : State) : s.FocusChangeOnly (s.announceView v t) := by
  unfold State.announceView
  split
  · exact .refl s
  · exact s.offerReport_focusOnly t _

theorem State.buttonReport_focusOnly (t : Target) (s : State) : s.FocusChangeOnly (s.buttonReport t) := s.offerReport_focusOnly t _

theorem State.wakeRequest_focusOnly (t : Target) (s : State) : s.FocusChangeOnly (s.wakeRequest t) := by
  unfold State.wakeRequest
  split
  · rename_i h
    refine (s.sendTo_focusOnly t (.wake t)).trans (State.modTarget_focusOnly t _ _ ⟨rfl, rfl, rfl, rfl, rfl, .inr ⟨?_, rfl⟩⟩)
    have : (s.sendTo t (.wake t)).targets = s.targets := by unfold State.sendTo; split <;> rfl
    rw [this]; exact h
  all_goals exact .refl s

/-! ## The focus switch, the directed change and the re-evaluation -/

theorem State.setLast_focusOnly (t : Target) (q : Nat × Nat) (s : State) : s.FocusChangeOnly (s.setLast t q) :=
  s.modTarget_focusOnly t _ ⟨rfl, rfl, rfl, rfl, rfl, .inl rfl⟩

theorem State.requestSync_focusOnly (t : Target) (s : State) : s.FocusChangeOnly (s.requestSync t) :=
  (s.modTarget_focusOnly t _ (TargetPort.requestSync_keeps ..)).trans (State.portEnd_focusOnly t _)

theorem State.pointerReport_focusOnly (t : Target) (q : Nat × Nat) (w : Int) (c e : Bool) (s : State) :
    s.FocusChangeOnly (s.pointerReport t q w c e) := by
  unfold State.pointerReport
  have h := s.setLast_focusOnly t q
  dsimp only
  split
  · split
    · split
      · exact h.trans ((State.requestSync_focusOnly t _).trans (State.buttonReport_focusOnly t _))
      · exact h.trans (State.requestSync_focusOnly t _)
    · split
      · exact h.trans (State.offerReport_focusOnly t _ _)
      · split
        · exact h.trans (State.offerReport_focusOnly t _ _)
        · exact h
  · exact h.trans (State.offerReport_focusOnly t _ _)

theorem State.leave_focusOnly (a : Target) (s : State) : s.FocusChangeOnly (s.leave a) := by
  have h := (s.modKeys_focusOnly a (KeyState.dropPorts s.following)).trans (State.announceView_focusOnly (s.view a) a _)
  unfold State.leave
  dsimp only
  split
  · exact h
  · exact h.trans (State.buttonReport_focusOnly a _)

/-- Console ports changed in their suppressed sets, and key-state tables changed, are no more than a focus change may touch. -/
theorem State.ports_focusOnly (s : State) (f : Port → ConsolePort → ConsolePort) (ks : Vector KeyState 8)
    (h : ∀ p c, f p c = { c with supKeys := (f p c).supKeys, supMods := (f p c).supMods, supButtons := (f p c).supButtons }) :
    s.FocusChangeOnly { s with ports := updAll s.ports f, keyStates := ks } :=
  ⟨rfl, fun p => by show (updAll s.ports f)[p] = _; rw [updAll_get]; exact h p _, fun _ => TargetPort.KeepsSettings.refl _⟩

theorem State.carryOver_focusOnly (s before : State) (a b : Target) (m : ModSet) : s.FocusChangeOnly (s.carryOver before a b m) := by
  unfold State.carryOver
  refine State.FocusChangeOnly.trans (State.ports_focusOnly s _ _ fun p c => ?_) (State.announceView_focusOnly (s.view b) b _)
  split <;> rfl

theorem State.arrive_focusOnly (a b : Target) (c : Cause) (r : Region) (s : State) : s.FocusChangeOnly (s.arrive a b c r) := by
  unfold State.arrive
  dsimp only
  refine .trans (b := { s with focus := _, glide := _ }) ⟨rfl, fun _ => rfl, fun _ => TargetPort.KeepsSettings.refl _⟩ ?_
  have h := fun x : State => ((x.modTarget_focusOnly a _ (TargetPort.abandonSync_keeps _)).trans
    (State.sendLeds_focusOnly (fun p => ((x.modTarget a TargetPort.abandonSync).pin p).isNone) _)).trans
      (State.raise_focusOnly .focusChanged (eightSubject b) _)
  split
  · exact (h _).trans (State.wakeRequest_focusOnly b _)
  · exact h _

theorem State.switchTo_focusOnly (b : Target) (c : Cause) (m : ModSet) (r : Region) (s : State) :
    s.FocusChangeOnly (s.switchTo b c m r) := by
  unfold State.switchTo
  dsimp only
  split
  · exact .refl s
  · exact ((s.leave_focusOnly _).trans (State.carryOver_focusOnly ..)).trans (State.arrive_focusOnly ..)

theorem State.switch_focusOnly (b : Target) (c : Cause) (m : ModSet) (r : Region) (s : State) :
    s.FocusChangeOnly (s.switch b c m r) := by
  unfold State.switch
  split
  · exact .refl s
  · refine (s.switchTo_focusOnly b c m r).trans ?_
    unfold State.entry
    split
    · exact State.pointerReport_focusOnly ..
    · exact .refl _

theorem State.recordRegion_focusOnly (s : State) : s.FocusChangeOnly s.recordRegion :=
  ⟨rfl, fun _ => rfl, fun _ => TargetPort.KeepsSettings.refl _⟩

theorem State.warp_focusOnly (q : Nat × Nat) (s : State) : s.FocusChangeOnly (s.warp q) :=
  ⟨rfl, fun _ => rfl, fun _ => TargetPort.KeepsSettings.refl _⟩

theorem State.detach_focusOnly (t : Target) (s : State) : s.FocusChangeOnly (s.detach t) :=
  ⟨rfl, fun _ => rfl, fun _ => TargetPort.KeepsSettings.refl _⟩

/-- A directed focus change touches no more than a focus change may. -/
theorem State.directed_focusOnly (t : Target) (c : Cause) (m : ModSet) (s : State) : s.FocusChangeOnly (s.directed t c m) := by
  unfold State.directed
  split
  · exact (s.warp_focusOnly _).trans ((State.switch_focusOnly ..).trans (State.recordRegion_focusOnly _))
  · split
    · exact .refl s
    · exact (s.detach_focusOnly t).trans ((State.switch_focusOnly ..).trans (State.recordRegion_focusOnly _))

/-- A region re-evaluation touches no more than a focus change may. -/
theorem State.reevaluate_focusOnly (c : Cause) (m : ModSet) (s : State) : s.FocusChangeOnly (s.reevaluate c m) := by
  have h := s.recordRegion_focusOnly
  unfold State.reevaluate
  dsimp only
  split
  · exact h
  · split
    · exact h
    · split
      · exact h
      · exact h.trans (State.switch_focusOnly ..)

/-! ## The merge engine -/

/-- The cleaned key list (R31): the distinct keys of the list but 0 and 255, each where it first stands. -/
theorem cleanKeys_eq (list : List Key) : cleanKeys list = (list.filter fun k => k != 0 && k != 255).eraseDups := by
  simp [cleanKeys, firstAppearances_eq]

/-! ## Heads -/

/-- A geometry in range is measured as it is (R123, R125). -/
theorem measuredGeometry_eq (g : Geometry) (h : geometryOk g = true) : measuredGeometry g = g := by simp [measuredGeometry, h]

/-- What a head measures lies in the range of R123. -/
theorem measuredGeometry_ok (g : Geometry) : geometryOk (measuredGeometry g) = true := by
  unfold measuredGeometry
  split
  · assumption
  · simp only [geometryOk, Bool.and_eq_true, decide_eq_true_eq]
    omega

/-- A head in NO_SIGNAL finishes no frame. -/
theorem HeadState.frameEnd_noSignal (g : Geometry) (pic : Nat) (h : HeadState) (hl : h.lock = .noSignal) : h.frameEnd g pic = h := by
  simp [HeadState.frameEnd, hl]

/-! ## Commands executed in parts -/

theorem State.takeFrame_of_busy (c : Option ControlCommand) (start : Target → ControlFrame → State → State) (e : Execution) (s : State)
    (h : s.executing = some e) : s.takeFrame c start = s := by simp [State.takeFrame, h]

/-- Everything a row of a command executed in parts can do: a free engine takes a frame, an engine executing this command goes on with it,
and one executing another does nothing. -/
theorem State.controlPart_cases (c : ControlCommand) (start : Target → ControlFrame → State → State) (s : State) :
    (s.executing = none ∧ s.controlPart c start = s.takeFrame (some c) start) ∨
    (∃ e, s.executing = some e ∧ e.work.command = c ∧ s.controlPart c start = s.goOn e) ∨
    ∃ e, s.executing = some e ∧ e.work.command ≠ c ∧ s.controlPart c start = s := by
  unfold State.controlPart
  cases h : s.executing with
  | none => exact .inl ⟨rfl, rfl⟩
  | some e =>
    by_cases hc : e.work.command = c
    · exact .inr (.inl ⟨e, rfl, hc, by simp [hc]⟩)
    · exact .inr (.inr ⟨e, rfl, hc, by simp [hc]⟩)

@[simp] theorem State.finish_without_frame (u : Target) (w : EngineWork) (a : Answer) (s : State) :
    s.finish ⟨u, none, w⟩ a = { s with executing := none } := rfl

@[simp] theorem State.finish_with_frame (u : Target) (f : ControlFrame) (w : EngineWork) (a : Answer) (s : State) :
    s.finish ⟨u, some f, w⟩ a = ({ s with executing := none } : State).reply u f a := rfl

@[simp] theorem State.goOn_status_cons (u : Target) (f : Option ControlFrame) (b : StatusBlock) (left : List StatusBlock)
    (data : List Byte) (s : State) : s.goOn ⟨u, f, .status (b :: left) data⟩ =
      { s with executing := some ⟨u, f, .status left (s.readBlock b data)⟩ } := rfl

@[simp] theorem State.goOn_status_nil (u : Target) (f : Option ControlFrame) (data : List Byte) (s : State) :
    s.goOn ⟨u, f, .status [] data⟩ = s.finish ⟨u, f, .status [] data⟩ (okWith data) := rfl

/-- Every block but a target port, whose resync flag joins a byte, adds its items behind the data read before. -/
theorem State.readBlock_eq_append (b : StatusBlock) (data : List Byte) (s : State) (h : ∀ t : Target, b ≠ .targetPort t) :
    s.readBlock b data = data ++ s.readBlock b [] := by
  cases b with
  | targetPort t => exact absurd rfl (h t)
  | _ => simp [State.readBlock]

end Sys2Proof.Machine
end

