-- ==== Sys2Proof/Tests/Slice0.lean ====
section
/-! SUPPORT. Tests: the checks of `Instr.wf` refuse ill-formed commands; worked examples of the manual, each named with its section;
witnesses for the hypotheses of the obligations. -/

namespace Sys2Proof.Machine.Tests

/-- The state a command leaves, or the state before the test where it stops. -/
def after (c : Instr) (s : State) : State :=
  match exec c s with
  | .next t => t
  | _ => State.reset

/-- Power-on, with every console port a KEYBOARD, every target ACTIVE in REPORT mode and permitted. -/
def ready : State := { State.reset with
  ports := Vector.ofFn fun _ => { ConsolePort.initial with attached := true, cls := some .keyboard }
  targets := Vector.ofFn fun _ => { TargetPort.initial with attached := true, power := .active, mode := .report }
  policies := Vector.ofFn fun _ => ⟨.onFocus, 1, true, true⟩ }

/-- `ready` with one target port changed. -/
def withTarget (t : Target) (f : TargetPort → TargetPort) : State := ready.modTarget t f

/-- `ready` with a control frame of T0 waiting: tag 9, a command byte and arguments. -/
def asked (c : Byte) (args : List Byte) : State := withTarget 0 fun p => { p with inbox := some ⟨9, c, args⟩ }

/-- The state after n rows of one command. -/
def rows (c : Instr) (n : Nat) (s : State) : State :=
  match execTimes c n s with
  | .next t => t
  | _ => State.reset

/-- The state after n DESK_RESET rows. -/
def inParts (n : Nat) (s : State) : State := rows .deskReset n s

/-- The state after n STATUS_READ rows. -/
def reading (n : Nat) (s : State) : State := rows .statusRead n s

/-- `ready` with these entries in CP0's FIFO. -/
def queued (l : List FifoEntry) : State := ready.modPort 0 fun p => { p with fifo := l }

/-! ## WellFormed refuses ill-formed commands -/

theorem test_wf_thirteen_keys : (Instr.cKeys 0 0 (.keys (List.replicate 13 30))).wf = false := by decide
theorem test_wf_credit_zero : (Instr.pCredit 0 0).wf = false := by decide
theorem test_wf_credit_thirty_three : (Instr.pCredit 0 33).wf = false := by decide
theorem test_wf_led_bit_five : (Instr.pLeds 0 32).wf = false := by decide
theorem test_wf_sixty_one_arguments : (Instr.pControl 0 0 0 (List.replicate 61 0)).wf = false := by decide
theorem test_wf_good_bytes_are_no_bad_console_frame : (Instr.badConsoleFrame 0 [4, 0, 0, 4]).wf = false := by decide
theorem test_wf_good_bytes_are_no_bad_target_frame : (Instr.badTargetFrame 0 [0x17, 0, 0, 0x17]).wf = false := by decide
theorem test_wf_boundaries : ((Instr.cKeys 0 0 (.keys (List.replicate 12 30))).wf && (Instr.pCredit 0 1).wf && (Instr.pCredit 0 32).wf &&
    (Instr.pLeds 0 31).wf && (Instr.pControl 0 0 0 (List.replicate 60 0)).wf) = true := by decide

/-! ## Frames (spec 10) -/

/-- Spec 10.1, "the check of a motion frame": the check is sent as 2, 45. -/
theorem test_motion_frame_bytes : laneFrame (.cMotion 0 40 (-3) 0 0) = some [3, 6, 0, 40, 255, 253, 0, 0, 2, 45] := by decide

/-- The same example with dy's low byte altered from 253 to 252: the frame is refused. -/
theorem test_altered_motion_frame : consoleCommand 0 [3, 6, 0, 40, 255, 252, 0, 0, 2, 45] = none := by decide

/-- R24 step 2, R179: an undamaged frame of an unknown kind is refused. -/
theorem test_unknown_kind : consoleLane 1 (sealFrame 0x05 [0]) = .badConsoleFrame 1 (sealFrame 0x05 [0]) := by decide

/-- R180: a C_KEYS with count ROLLOVER (255) carries no keys. -/
theorem test_rollover_frame : consoleLane 2 [2, 2, 1, 255, 1, 4] = .cKeys 2 1 .rollover := by decide

/-! ## Resets (R176) -/

theorem test_power_on_samples_straps : (after (.powerOn 5 true) ready).policies[5].permit = true ∧
    (after (.powerOn 5 true) ready).policies[0].permit = false ∧ (after (.powerOn 5 true) ready).lockStrap = true := by decide
theorem test_hard_reset_unattaches_and_keeps_tables : (after .hardReset ready).targets[0].attached = false ∧
    (after .hardReset ready).policies[7].permit = true ∧ (after .hardReset ready).resetAsserted = true := by decide
theorem test_reset_release_starts_idle_timer :
    (after .resetNRelease { State.reset with resetAsserted := true, desk := { powerOnDesk with deskIdle := 5 } }).idleTimer = some 5 := by
  decide

/-! ## Console lanes and the merge (spec 02) -/

/-- Spec 2.8, "comparing one snapshot with the next": 44 stays, 30 is released, 17 and 52 are pressed in the entry's order. -/
theorem test_snapshot_comparison :
    let s := { ready with
      ports := upd ready.ports 0 fun p => { p with fifo := [.keys 3 [44, 0, 17, 17, 52] false], snapMods := 1, snapKeys := [30, 44] }
      keyStates := upd ready.keyStates 0 fun k => { k with
        keys := [⟨30, 1, 0⟩, ⟨44, 1, 1⟩], counter := 2, mods := upd k.mods 0 fun _ => 1 } }
    let t := after .mergeTakeEntry s
    t.ports[0].snapKeys = [44, 17, 52] ∧ t.ports[0].snapMods = 3 ∧ t.keyStates[0].keys = [⟨44, 1, 1⟩, ⟨17, 1, 2⟩, ⟨52, 1, 3⟩] ∧
      t.keyStates[0].modSet = 3 := by decide

/-- Spec 2.8, the release-all entry after the same example: nothing held, nothing suppressed, T0 told so. -/
theorem test_release_all :
    let s := (queued [.releaseAll]).modPort 0 fun p => { p with snapKeys := [44], supKeys := [44] }
    (after .mergeTakeEntry s).ports[0].supKeys = [] ∧ (after .mergeTakeEntry s).ports[0].snapKeys = [] := by decide

/-- Spec 2.8, "a full FIFO under a burst of motion", third arrival: dx and the wheel saturate. -/
theorem test_motion_burst_saturates :
    let s := (queued (List.replicate 7 (.motion 0 0 0 0 false) ++ [.motion 30042 (-3) 100 0 false]))
    (after (.cMotion 0 5000 0 50 0) s).ports[0].fifo.getLast? = some (.motion 32767 (-3) 127 0 false) := by decide

/-- Spec 2.8, the same burst, fourth arrival: unequal buttons are discarded with CONSOLE_OVERRUN for the port. -/
theorem test_motion_burst_overruns :
    let s := queued (List.replicate 8 (.motion 0 0 0 0 false))
    (after (.cMotion 0 0 0 0 1) s).subjects .consoleOverrun = 1 ∧ (after (.cMotion 0 0 0 0 1) s).ports[0].fifo.length = 8 := by decide

/-- Spec 2.8, "rotation over the four ports", take 1: after CP1, CP2 is empty and CP3 is served. -/
theorem test_merge_rotation :
    let e : FifoEntry := .keys 0 [] false
    let s := { ready with
      mergeLast := 1
      ports := Vector.ofFn fun p => { ready.ports[p] with fifo := if p = 2 then [] else if p = 0 then [e, e] else [e] } }
    (after .mergeTakeEntry s).mergeLast = 3 ∧ (after .mergeTakeEntry s).ports[3].fifo = [] := by decide

/-- R29: at a full FIFO the newest C_KEYS entry is overwritten in its place. -/
theorem test_keys_overwrite_keeps_place :
    let s := queued (.keys 0 [30] true :: List.replicate 7 .releaseAll)
    (after (.cKeys 0 2 (.keys [31])) s).ports[0].fifo.head? = some (.keys 2 [31] true) := by decide
theorem test_rollover_changes_no_fifo : (after (.cKeys 0 2 .rollover) ready).ports[0].fifo = [] := by decide
theorem test_reattach_flushes : (after (.cAttach 0 .pointer) (queued [.keys 0 [] false])).ports[0].fifo = [.releaseAll] := by decide
theorem test_attach_sends_leds : (after (.cAttach 0 .keyboard) State.reset).sent = [.leds 0 0] := by decide
theorem test_detach_keeps_class : (after (.cDetach 0) ready).ports[0].cls = some .keyboard ∧
    (after (.cDetach 0) ready).ports[0].fifo = [.releaseAll] := by decide
theorem test_lane_loss_unattached : (after (.consoleLaneLoss 0) State.reset).ports[0].fifo = [] := by decide
theorem test_bad_console_frame : (after (.badConsoleFrame 3 [1]) ready).subjects .laneError = 8 := by decide
theorem test_bad_target_frame : (after (.badTargetFrame 3 [0x11]) ready).subjects .laneError = 128 := by decide

/-! ## Keys and hotkeys (spec 03, 04) -/

/-- T6 with twelve keys of CP0 in BOOT mode (spec 3.9, "thirteen keys to a BOOT target"). -/
def twelveKeys : State := { withTarget 6 (fun p => { p with mode := .boot }) with
  keyStates := upd ready.keyStates 6 fun k => { k with
    keys := (List.range 12).map fun i => ⟨BitVec.ofNat 8 (4 + i), 1, BitVec.ofNat 16 i⟩, counter := 12 } }

theorem test_thirteenth_key_is_suppressed : (twelveKeys.keyPress 0 6 (.key 16)).ports[0].supKeys = [16] ∧
    (twelveKeys.keyPress 0 6 (.key 16)).targets[6].queue = [] := by decide
theorem test_released_key_brings_the_seventh :
    (twelveKeys.keyRelease 0 (.key 5)).targets[6].queue = [.keys 0 [4, 6, 7, 8, 9, 10]] := by decide

/-- Spec 4.4, "leader and digit": the second tap of RCTL opens the leader for the DESK leader time. -/
theorem test_second_tap_opens_the_leader :
    let s := (queued [.keys 16 [] false]).setDetector ⟨.tapWait, some (.mod 4, 0), some 350, none⟩
    (after .mergeTakeEntry s).detector = ⟨.leader, none, none, some 2000⟩ ∧
      (after .mergeTakeEntry s).targets[0].queue = [.keys 16 []] := by decide

/-- Spec 4.4, the same example: key 32 in the leader moves focus to T2, warps to (4800.0, 540.0), and is consumed. -/
theorem test_leader_digit_moves_focus :
    let s := (queued [.keys 0 [32] false]).setDetector ⟨.leader, none, none, some 2000⟩
    let t := after .mergeTakeEntry s
    t.focus = ⟨2, .screen 2, .hotkey, false, false, [0]⟩ ∧ t.glide.px = 76800 ∧ t.ports[0].supKeys = [32] ∧
      t.detector.state = .idle := by decide
theorem test_tap_deadline : (after .tapDeadlineExpiry (ready.setDetector ⟨.tapWait, some (.mod 4, 0), some 350, none⟩)).detector =
    Detector.initial := by decide
theorem test_leader_deadline : (after .leaderDeadlineExpiry (ready.setDetector ⟨.leader, none, none, some 2000⟩)).detector =
    Detector.initial := by decide

/-- R78: a port re-pinned to FOLLOW gives a chord its modifiers only from its next processed snapshot. -/
theorem test_repinned_port_joins_at_its_next_snapshot :
    let s (l : List FifoEntry) : State := { ready with
      ports := upd ready.ports 1 fun p => { p with snapMods := 2, fifo := l }
      consoles := upd ready.consoles 1 fun c => { c with pin := some 0 }
      targets := upd ready.targets 0 fun p => { p with inbox := some ⟨9, 1, [5, 1, 255, 16, 24, 0, 12]⟩ } }
    (after .tableWrite (s [])).chordMods 0 1 = 1 ∧
      (after .mergeTakeEntry (after .tableWrite (s [.keys 2 [] false]))).chordMods 0 1 = 3 := by decide

/-! ## Pointer (spec 05) -/

/-- Spec 5.9, first example: dx +40, dy −3 gives the step (960, −72). -/
theorem test_scaled_step : ready.scaledStep 0 40 (-3) = (960, -72) := by decide
/-- Spec 5.9: absolute coordinates of (30, 495) in 5760 × 2160, and of the far column. -/
theorem test_absolute_coordinates : absCoord 30 5760 = 170 ∧ absCoord 495 2160 = 7509 ∧ absCoord 5759 5760 = 32762 ∧
    absCoord 5760 5760 = 32767 := by decide

/-- The edge-pressure example of spec 5.9: resistance 40, pointer at (1915.0, 540.0). -/
def pressing : State := { ready with desk := { powerOnDesk with resistance := 40 }, glide := { ready.glide with px := 30640 } }

theorem test_edge_pressure_accumulates :
    (after .mergeTakeEntry (pressing.modPort 1 fun p => { p with fifo := [.motion 8 0 0 0 false] })).glide.px = 30719 ∧
    (after .mergeTakeEntry (pressing.modPort 1 fun p => { p with fifo := [.motion 8 0 0 0 false] })).glide.pressure =
      some ⟨1, 4, .right⟩ := by decide
theorem test_edge_pressure_crosses :
    let s := { pressing with glide := { pressing.glide with px := 30719, pressure := some ⟨1, 14, .right⟩ } }
    let t := after .mergeTakeEntry (s.modPort 1 fun p => { p with fifo := [.motion 20 0 0 0 false] })
    t.glide.px = 31199 ∧ t.glide.pressure = none ∧ t.focus.target = 1 ∧ t.focus.cause = .glide := by decide

/-- The clipped-window example of spec 1.4: W0 on DO0 at (1600, 900), source VH3 locked at 1920 × 1080, shift 2. -/
def windowed : State := { ready with
  active := { ready.active with windows := upd ready.active.windows 0 fun _ => ⟨true, 0, 3, 1600, 900, 2, true⟩ }
  windows := upd ready.windows 0 fun w => { w with shown := true }
  heads := upd ready.heads 3 fun h => { h with lock := .locked, measured := some ⟨1920, 1080⟩ } }

theorem test_window_is_clipped : windowed.windowRect 0 = ⟨1600, 900, 320, 180⟩ := by decide
theorem test_regions_about_the_window : windowed.regionAt 1599 950 = some (.screen 0) ∧ windowed.regionAt 1600 900 = some (.window 0) ∧
    windowed.regionAt 1919 1079 = some (.window 0) ∧ windowed.regionAt 1920 950 = some (.screen 1) ∧
    windowed.regionAt 1000 1080 = none := by decide

/-- Spec 3.9, "a window hidden under a held button": the switch to T0 is obliged, B1 is taken from T3 and suppressed. -/
theorem test_hidden_window_obliges_a_switch :
    let s := { windowed with
      focus := ⟨3, .window 0, .window, false, false, []⟩
      glide := { windowed.glide with px := 27200, py := 16000 }
      ports := upd windowed.ports 1 fun p => { p with held := 1 }
      keyStates := upd windowed.keyStates 3 fun k => { k with buttons := upd k.buttons 0 fun _ => 2 }
      targets := upd windowed.targets 0 fun p => { p with inbox := some ⟨9, 7, [0, 0]⟩ } }
    let t := after .windowShow s
    t.focus.target = 0 ∧ t.focus.cause = .window ∧ t.ports[1].supButtons = 1 ∧ t.targets[3].queue = [.rel 0 0 0 0 false] ∧
      t.focus.history = [3] := by decide

/-- R100: a step of 17 sixteenths from T5's last point (0, 0) leaves fraction 1; a step beyond the left edge is clamped. -/
theorem test_pinned_motion :
    let s : State := { ready with consoles := upd ready.consoles 0 fun c => { c with pin := some 5, gainSlow := 17 } }
    let t := s.pointerEvent ⟨0, 1, -1, 0, 0, 0, 0⟩
    t.glide.fractions[0] = (1, 0) ∧ t.targets[5].lx = 1 ∧ t.targets[5].ly = 0 ∧ t.glide.px = s.glide.px := by decide

/-- R99: detached motion moves the detached pointer only. -/
theorem test_detached_motion :
    let s := ready.directed 7 .control 0
    let t := s.pointerEvent ⟨0, 2, -2, 0, 0, 0, 0⟩
    s.glide.detached = some (15360, 8640) ∧ t.glide.detached = some (15392, 8608) ∧ t.glide.px = s.glide.px ∧ t.targets[7].lx = 962 := by
  decide

/-! ## Target lanes (spec 06, 08) -/

theorem test_attach_clears_credit : (after (.pAttach 0 .boot) (withTarget 0 fun p => { p with credit := 7 })).targets[0].credit = 0 := by
  decide
theorem test_detach_abandons_the_hold : (after (.pDetach 2) { ready with holdOwner := some 2 }).holdOwner = none := by decide
theorem test_lane_loss_keeps_mode : (after (.targetLaneLoss 2) ready).targets[2].mode = .report ∧
    (after (.targetLaneLoss 2) ready).targets[2].power = .absent := by decide
theorem test_mode_change_of_the_focus_target :
    (after (.pMode 0 .boot) ready).targets[0].queue = [.rel (-127) (-127) 0 0 true, .keys 0 [], .rel 0 0 0 0 false] ∧
      (after (.pMode 0 .boot) ready).targets[0].sync.homeLeft = 15 := by decide
theorem test_credit_saturates : (after (.pCredit 1 32) (withTarget 1 fun p => { p with credit := 5 })).targets[1].credit = 32 := by decide
theorem test_leds_reach_the_followers : (after (.pLeds 0 2) ready).sent = [.leds 0 2, .leds 1 2, .leds 2 2, .leds 3 2] := by decide
theorem test_leds_of_another_target : (after (.pLeds 5 1) ready).sent = [] ∧ (after (.pLeds 5 1) ready).targets[5].leds = 1 := by decide
theorem test_send_uses_a_credit :
    let s := withTarget 1 fun p => { p with queue := [.keys 0 [4], .keys 0 []], credit := 1 }
    (after (.sendReport 1) s).targets[1].queue = [.keys 0 []] ∧ (after (.sendReport 1) s).targets[1].stall = some 250 := by decide
theorem test_stall_restates :
    let s := withTarget 1 fun p => { p with queue := List.replicate 32 (.keys 0 [4]), stall := some 250 }
    (after (.stallTimerExpiry 1) s).targets[1].queue = [.keys 0 [], .rel 0 0 0 0 false] ∧
      (after (.stallTimerExpiry 1) s).subjects .targetStalled = 2 := by decide

/-- T4 at 6.0 s of spec 8.7, "waking a computer by turning to it", in REPORT mode with three held reports. -/
def waking : State := withTarget 4 fun p => { p with
  power := .waking, credit := 5, hold := [.keys 0 [20], .keys 0 [], .rel 0 0 0 0 false], wakeTimer := some 8
  sync := ⟨.pending, 0, 0, 0⟩, lx := 960, ly := 540 }

theorem test_resumption : (after (.pPower 4 .active) waking).targets[4].queue =
    [.keys 0 [20], .keys 0 [], .rel 0 0 0 0 false, .rel (-32767) (-32767) 0 0 true, .keys 0 [], .rel 0 0 0 0 false] ∧
    (after (.pPower 4 .active) waking).targets[4].sync.phase = .home := by decide
theorem test_suspension_clears_the_queue :
    (after (.pPower 4 .suspended) (withTarget 4 fun p => { p with queue := [.keys 0 [20]], credit := 5 })).targets[4].queue = [] ∧
    (after (.pPower 4 .suspended) (withTarget 4 fun p => { p with queue := [.keys 0 [20]], credit := 5 })).targets[4].credit = 5 := by
  decide

/-- Spec 8.7, "a wake that fails", at 8 s: the retry sends the second T_WAKE. -/
theorem test_wake_retry : (after (.wakeTimerExpiry 4) waking).sent = [.wake 4] ∧ (after (.wakeTimerExpiry 4) waking).targets[4].retry = 1 := by
  decide
/-- The same at 16 s: failure, with key 20 in CP0's suppressed set. -/
theorem test_wake_failure :
    let s := (waking.modTarget 4 fun p => { p with retry := 1 }).modKeys 4 fun k => { k with keys := [⟨20, 1, 0⟩], counter := 1 }
    (after (.wakeTimerExpiry 4) s).targets[4].power = .suspended ∧ (after (.wakeTimerExpiry 4) s).ports[0].supKeys = [20] ∧
      (after (.wakeTimerExpiry 4) s).subjects .wakeFailed = 16 := by decide

/-- Spec 8.7, "the desk goes to rest", at 5 min and at 10 min. -/
theorem test_notice_keeps_the_desk_awake :
    (after .idleTimerExpiry ({ ready with idleTimer := some 5, desk := { powerOnDesk with deskIdle := 5 } }.raise .focusChanged 0)).deskState =
      .awake := by decide
theorem test_desk_goes_idle : (after .idleTimerExpiry { ready with idleTimer := some 5 }).deskState = .idle := by decide

/-! ## Video (spec 07) -/

theorem test_signal_arrival : (after (.signalArrival 3) ready).heads[3].lock = .locking := by decide
theorem test_signal_loss : (after (.signalLoss 3) windowed).heads[3].lock = .noSignal ∧
    (after (.signalLoss 3) windowed).heads[3].measured = some ⟨1920, 1080⟩ := by decide

/-- VH3 of spec 7.5, "a head that changes its mind while locking", before its third frame end. -/
def locking : State := { ready with heads := upd ready.heads 3 fun h => { h with lock := .locking, candidate := some ⟨1920, 1200⟩ } }

theorem test_head_locks_and_mismatches : (after (.headFrameEnd 3 ⟨1920, 1200⟩ 7) locking).heads[3].latest = some ⟨⟨1920, 1200⟩, 7, 1⟩ ∧
    (after (.headFrameEnd 3 ⟨1920, 1200⟩ 7) locking).subjects .geometryMismatch = 8 := by decide
/-- R125: a frame of a size outside R123's range becomes the candidate like any other. -/
theorem test_frame_of_any_size_runs : (after (.headFrameEnd 3 ⟨0, 32768⟩ 7) locking).heads[3].candidate = some ⟨0, 32768⟩ := by decide
theorem test_head_changes_candidate : (after (.headFrameEnd 3 ⟨1920, 1080⟩ 7) locking).heads[3].candidate = some ⟨1920, 1080⟩ := by decide

/-- VH0 of spec 7.5, "the base that loses its signal", with a count of frames since loss. -/
def lost (n : Nat) : State := { ready with
  heads := upd ready.heads 0 fun h => { h with measured := some ⟨1920, 1080⟩, latest := some ⟨⟨1920, 1080⟩, 7, 1⟩, sinceLoss := n } }

theorem test_held_at_the_120th_frame : (after (.displayFrameStart 0) (lost 119)).displays[0].output = .held ∧
    (after (.displayFrameStart 0) (lost 119)).heads[0].sinceLoss = 120 := by decide
theorem test_fill_at_the_121st_frame : (after (.displayFrameStart 0) (lost 120)).displays[0].output = .fill := by decide

/-- Spec 7.5, "three windows sharing one budget", frames 1 and 2. -/
theorem test_three_windows_share_a_budget :
    let cost : Window → Nat := fun w => if w = 2 then 9 else 17
    grants cost 32 [0, 1, 2] = [(0, true), (1, false), (2, true)] ∧ nextRotation 0 (grants cost 32 [0, 1, 2]) = 1 ∧
      grants cost 32 [1, 2, 0] = [(1, true), (2, true), (0, false)] ∧ nextRotation 1 (grants cost 32 [1, 2, 0]) = 0 := by decide

/-! ## Control (spec 09, 10) -/

theorem test_control_enters_the_inbox : (after (.pControl 0 9 2 []) ready).targets[0].inbox = some ⟨9, 2, []⟩ := by decide
theorem test_second_control_frame_is_busy : (after (.pControl 0 10 2 []) (asked 2 [])).sent = [.reply 0 10 .busy []] := by decide
theorem test_layout_hold : (after .layoutHold (asked 2 [])).holdOwner = some 0 := by decide
theorem test_layout_abandon_without_hold : (after .layoutAbandon (asked 4 [])).sent = [.reply 0 9 .notHeld []] := by decide
theorem test_layout_release : (after .layoutRelease { asked 3 [] with holdOwner := some 0 }).sent = [.reply 0 9 .ok []] := by decide
/-- R17: a tier 0 that is not used fails TIER_ORDER, code 1, at tier 0. -/
theorem test_layout_invalid :
    let s := { asked 3 [] with holdOwner := some 0, edit := { powerOnLayout with tiers := upd powerOnLayout.tiers 0 fun t => { t with used := false } } }
    (after .layoutRelease s).sent = [.reply 0 9 .layoutInvalid [1, 0]] := by decide
theorem test_focus_set : (after .focusSet (asked 5 [3])).focus = ⟨3, .screen 3, .control, false, false, [0]⟩ := by decide
theorem test_focus_set_of_eight : (after .focusSet (asked 5 [8])).sent = [.reply 0 9 .badValue [0xE1]] := by decide
theorem test_wake_of_an_active_target : (after .wake (asked 6 [1])).sent = [.reply 0 9 .ok [1]] := by decide
theorem test_window_show_of_a_disabled_window : (after .windowShow (asked 7 [0, 1])).sent = [.reply 0 9 .notEnabled []] := by decide
theorem test_table_read_desk : (after .tableRead (asked 0 [8, 0])).sent =
    [.reply 0 9 .ok [8, 0, 1, 0, 0, 1, 94, 7, 208, 8, 0, 250, 0, 1, 12, 0, 120, 30]] := by decide
/-- Spec 10.5: a TIERS write whose slot 2 display byte is 6 is answered BAD_VALUE with item 11. -/
theorem test_tiers_write_names_item_eleven :
    let args : List Byte := [0, 0, 1, 4, 56, 1, 7, 128, 0, 1, 15, 0, 1, 1, 22, 128, 6, 1, 30, 0, 3, 1, 37, 128, 4, 1, 45, 0, 5]
    (after .tableWrite (asked 1 args)).sent = [.reply 0 9 .badValue [11]] := by decide
/-- Spec 9.7, end of step 6: a target that alone has permit cannot clear it; field 6 is named. -/
theorem test_last_permit_stays :
    let s := { asked 1 [4, 0, 7, 128, 4, 56, 0, 1, 1, 0] with policies := powerOnPolicies 0 }
    (after .tableWrite s).sent = [.reply 0 9 .badValue [6]] := by decide
theorem test_status_of_a_port : (reading 2 (asked 8 [0x20])).sent = [.reply 0 9 .ok [128, 0, 0]] := by decide

/-- R172: a P_MODE and a focus change taken after the focus unit's read and before the target ports' read: the mode shows, the focus does
not. -/
theorem test_status_read_in_parts :
    let s := reading 4 (after (.pMode 3 .boot) ((reading 4 (asked 8 [0])).directed 5 .hotkey 0))
    (s.sent.getLast? = some (.reply 0 9 .ok ([0, 0, 255, 0, 0, 5, 0, 0, 255, 255, 255, 255] ++ beBytes 3 s.glide.px ++ beBytes 3 s.glide.py ++
      [0, 0, 0, 0, 0, 0, 0] ++ [17, 17, 17, 1, 17, 17, 17, 17] ++ [0, 0, 0, 0, 0, 0]))) ∧ s.focus.target = 5 ∧ s.executing = none := by decide
theorem test_notice_read : (after .noticeRead ((asked 9 []).raise .laneError 7)).sent =
    [.reply 0 9 .ok ([8] ++ [0, 0, 0, 0, 0, 0, 0, 128, 0, 0, 0, 0, 0, 0, 0, 0] ++ [4])] := by decide
theorem test_notice_clear_names_one_subject :
    let s := ((asked 10 [8, 0, 1]).raise .focusChanged 0).raise .focusChanged 1
    (after .noticeClear s).subjects .focusChanged = 2 := by decide
theorem test_notice_subscribe : (after .noticeSubscribe (asked 11 [1])).subscribers = 1 := by decide
/-- R177, R178: parts 2 and 3 leave each ACTIVE target its resync; the reply follows part 6. -/
theorem test_desk_reset : (inParts 3 (asked 12 [])).targets[3].queue = [.keys 0 [], .rel 0 0 0 0 false] ∧
    (inParts 6 (asked 12 [])).sent.all (fun f => f != .reply 0 9 .ok []) = true ∧
    (inParts 7 (asked 12 [])).sent.getLast? = some (.reply 0 9 .ok []) ∧ (inParts 7 (asked 12 [])).executing = none := by decide

/-- R177: a key taken at the focus unit after part 2 is booked, and part 3 restates it. -/
theorem test_desk_reset_restates_a_key_of_between :
    (after .deskReset ((inParts 2 (asked 12 [])).keyPress 1 0 (.key 30))).targets[0].queue = [.keys 0 [30], .rel 0 0 0 0 false] := by decide

/-- R178: a teardown of the sender between the parts drops the reply and not the rest. -/
theorem test_desk_reset_of_a_torn_down_sender :
    (inParts 5 (after (.pDetach 0) (inParts 2 (asked 12 [])))).sent.all (fun f => f != .reply 0 9 .ok []) = true ∧
    (inParts 5 (after (.pDetach 0) (inParts 2 (asked 12 [])))).executing = none := by decide
theorem test_bad_command : (after .badCommand (asked 13 [])).sent = [.reply 0 9 .badCommand []] := by decide
theorem test_mismatching_row_has_no_effect : exec .wake (asked 5 [3]) = .next (asked 5 [3]) := by rfl

/-! ## Witnesses: for each obligation with hypotheses, states and operands that meet them, each clause at the boundaries of its range -/

/-- The command runs to a next state. -/
def answers (c : Instr) (s : State) : Bool :=
  match exec c s with
  | .next _ => true
  | _ => false

/-- Eight entries of one sort. -/
def eight (e : FifoEntry) : List FifoEntry := List.replicate 8 e

/-- RESET_N asserted, with the given desk idle. -/
def held (n : Nat) : State := { ready with resetAsserted := true, desk := { powerOnDesk with deskIdle := n } }

/-- `ready` with key 30, LSHF and B1 of CP0 held at T0. -/
def holding : State := { ready with
  ports := upd ready.ports 0 fun p => { p with snapMods := 2, snapKeys := [30], held := 1 }
  keyStates := upd ready.keyStates 0 fun k => { k with
    keys := [⟨30, 1, 0⟩], mods := upd k.mods 1 fun _ => 1, counter := 1, buttons := upd k.buttons 0 fun _ => 1 } }

/-- `ready` with CP0 pinned to T5. -/
def pinned (l : List FifoEntry) : State :=
  { queued l with consoles := upd ready.consoles 0 fun c => { c with pin := some 5 } }

theorem witness_StepRunsTheFrontCommand : ready.pending = [] ∧ ready.executing = none ∧ (inParts 1 (asked 12 [])).pending = [] ∧
    (inParts 1 (asked 12 [])).executing = some ⟨0, some ⟨9, 12, []⟩, .reset .focusUnit⟩ ∧ (reading 1 (asked 8 [0x20])).pending = [] ∧
    (reading 1 (asked 8 [0x20])).executing = some ⟨0, some ⟨9, 8, [0x20]⟩, .status [] [128, 0, 0]⟩ := by decide

theorem witness_QueueIsNotTouchedByCommands : answers (.headFrameEnd 3 ⟨1920, 1200⟩ 7) locking = true := by decide

theorem witness_HardResetKeepsTablesAndResetsBlocks : holding.LayoutSound := by decide

theorem witness_ResetReleaseStartsTheIdleTimer : ((held 1).resetAsserted = true ∧ 0 < (held 1).desk.deskIdle) ∧
    ((held 240).resetAsserted = true ∧ 0 < (held 240).desk.deskIdle) ∧
    ((held 0).resetAsserted = true ∧ (held 0).desk.deskIdle = 0) ∧ ready.resetAsserted = false := by decide

theorem witness_NothingHappensWhileResetIsAsserted : (held 0).resetAsserted = true ∧ (Instr.pAttach 7 .boot).wf = true ∧
    (∀ cfgt lock, Instr.pAttach 7 .boot ≠ .powerOn cfgt lock) ∧ Instr.pAttach 7 .boot ≠ .hardReset ∧
    Instr.pAttach 7 .boot ≠ .resetNRelease :=
  by
  refine ⟨by decide, by decide, ?_, by decide, by decide⟩
  intro _ _ h
  cases h

theorem witness_ConsoleAttachAndDetachSetThePort : State.reset.resetAsserted = false ∧ ready.resetAsserted = false ∧
    ready.ports[0].attached = true ∧ ready.ports[3].attached = true := by decide

theorem witness_KeysFrameIsAppendedOrOverwritesTheNewest :
    let s7 := queued (List.replicate 7 (.keys 0 [] false))
    let s8 := queued (.releaseAll :: .keys 0 [30] true :: List.replicate 6 .releaseAll)
    let s9 := queued (eight .releaseAll)
    let twelve := (List.range 12).map (BitVec.ofNat 8)
    s7.resetAsserted = false ∧ s7.ports[0].attached = true ∧ s7.ports[0].fifo.length < 8 ∧ twelve.length ≤ 12 ∧
    s8.resetAsserted = false ∧ s8.ports[0].attached = true ∧ s8.ports[0].fifo.length = 8 ∧
    s8.ports[0].fifo = [.releaseAll] ++ .keys 0 [30] true :: List.replicate 6 .releaseAll ∧
    (∀ e ∈ List.replicate 6 FifoEntry.releaseAll, e.isKeys = false) ∧
    s9.resetAsserted = false ∧ s9.ports[0].attached = true ∧ s9.ports[0].fifo.length = 8 ∧
    ∀ e ∈ s9.ports[0].fifo, e.isKeys = false := by decide

theorem witness_MotionFrameAppendsMergesOrOverruns :
    let m : FifoEntry := .motion 0 0 0 1 false
    let s7 := queued (List.replicate 7 m)
    let s8 := queued (eight m)
    let s9 := queued (eight .releaseAll)
    s7.resetAsserted = false ∧ s7.ports[0].attached = true ∧ s7.ports[0].fifo.length < 8 ∧
    s8.resetAsserted = false ∧ s8.ports[0].attached = true ∧ s8.ports[0].fifo.length = 8 ∧
    s8.ports[0].fifo = List.replicate 7 m ++ m :: [] ∧ (∀ e ∈ ([] : List FifoEntry), e.isMotion = false) ∧
    (0xE1 : Byte).setWidth 5 = (1 : ButtonSet) ∧ (0xE0 : Byte).setWidth 5 ≠ (1 : ButtonSet) ∧
    s9.resetAsserted = false ∧ s9.ports[0].attached = true ∧ s9.ports[0].fifo.length = 8 ∧
    ∀ e ∈ s9.ports[0].fifo, e.isMotion = false := by decide

theorem witness_UnattachedAndBadFramesAreDiscarded : State.reset.resetAsserted = false ∧ State.reset.ports[0].attached = false ∧
    (Instr.cKeys 0 0 (.keys (List.replicate 12 30))).wf = true ∧ State.reset.targets[7].attached = false ∧
    (Instr.pCredit 7 32).wf = true ∧ (Instr.pLeds 7 31).wf = true ∧ (Instr.pControl 7 0 0 (List.replicate 60 0)).wf = true ∧
    consoleCommand 0 [] = none ∧ consoleCommand 3 [4, 0, 0, 5] = none ∧ 12 < (List.replicate 13 (30 : Key)).length ∧
    targetCommand 0 [] = none ∧ targetCommand 7 [0x17, 0, 0, 0x18] = none ∧ ((0 : Byte) = 0 ∧ 32 < (33 : Byte).toNat) ∧
    32 ≤ (32 : Byte).toNat ∧ 60 < (List.replicate 61 (0 : Byte)).length := by decide

/-- A subject in the set, one outside it, and another kind. -/
theorem witness_RaiseSendsOneNoticePerNewSubject :
    has ((ready.raise .laneError 15).subjects .laneError) 15 = true ∧ has (ready.subjects .laneError) 15 = false ∧
    NoticeKind.wakeFailed ≠ .laneError := by decide

theorem witness_MergeTakesTheOldestEntryOfTheNextPort :
    (∀ e ∈ [FifoEntry.keys 3 [0, 30, 30, 255] true, .motion (-32768) 32767 127 31 false, .releaseAll],
      (queued [e]).resetAsserted = false ∧ (queued [e]).MergeTurn 0 ∧ (queued [e]).ports[0].fifo = e :: []) ∧
    ready.resetAsserted = false ∧ ∀ p : Port, ready.ports[p].fifo = [] := by decide

theorem witness_PinnedInputTouchesNeitherFocusNorPointer :
    let s := pinned [.keys 0 [30] false]
    s.resetAsserted = false ∧ s.MergeTurn 0 ∧ s.consoles[0].pin = some 5 ∧ (4 : Target) ≠ 5 ∧
    s.consoles[(⟨0, 32767, -1, 0, 0, 0, 0⟩ : PointerEvent).port].pin = some 5 := by decide

/-- No item of CP0 is held at T4. -/
theorem witness_PinnedInput_unconcerned_target : ∀ i : Item, (pinned [.keys 0 [30] false]).keyStates[4].holds 0 i = false := by
  intro i
  cases i with
  | key k => rfl
  | mod m => revert m; decide
  | button b => revert b; decide

theorem witness_KeyPressIsBookedOrSuppressed :
    let wakes := (withTarget 4 fun p => { p with power := .suspended })
    let wakes := { wakes with policies := upd wakes.policies 4 fun r => { r with wakePolicy := .onKey } }
    (holding.targets[0].power = .active ∧ holding.keyStates[0].hasKey 30 = true) ∧
    (holding.keyStates[0].hasKey 31 = false ∧ holding.keyStates[0].keys.length < 12) ∧
    (waking.targets[4].power = .waking ∧ waking.keyStates[4].hasKey 31 = false ∧ waking.keyStates[4].keys.length < 12) ∧
    (twelveKeys.targets[6].power = .active ∧ twelveKeys.keyStates[6].hasKey 16 = false ∧ 12 ≤ twelveKeys.keyStates[6].keys.length) ∧
    (State.reset.targets[0].power = .absent) ∧
    (wakes.targets[4].power = .suspended ∧ wakes.policies[4].wakePolicy = .onKey ∧ wakes.keyStates[4].hasKey 31 = false) := by decide

/-- A modifier press: of one held from another port, and of one not held; the view of each press that changes nothing, and that does. -/
theorem witness_KeyPress_of_a_modifier :
    holding.targets[0].power = .active ∧ (holding.keyPress 1 0 (.mod 1)).view 0 = holding.view 0 ∧
    (holding.keyPress 1 0 (.mod 7)).view 0 ≠ holding.view 0 := by decide

theorem witness_KeyReleaseIsAbsorbedOrTakenAtTheHolder :
    (ready.modPort 0 fun p => p.suppress (.key 30)).ports[0].suppressed (KeyItem.key 30).item = true ∧
    (holding.ports[0].suppressed (KeyItem.key 30).item = false ∧ holding.holder 0 (KeyItem.key 30).item = some 0) ∧
    (holding.ports[0].suppressed (KeyItem.mod 1).item = false ∧ holding.holder 0 (KeyItem.mod 1).item = some 0) ∧
    ((twelveKeys.keyRelease 0 (.key 15)).view 6 = twelveKeys.view 6 ∧ twelveKeys.holder 0 (.key 15) = some 6) ∧
    (holding.keyRelease 0 (.key 30)).view 0 ≠ holding.view 0 ∧ holding.holder 3 (.key 30) = none := by decide

/-- A CHORD entry of key 1 under LCTL, and one whose action is LEADER. -/
theorem witness_FiredChordConsumesItsTrigger :
    let chord (a : HotkeyAction) : HotkeyEntry := ⟨true, .chord, 1, false, .key 1, a, 0, false, false⟩
    let s (a : HotkeyAction) : State := { ready with hotkeys := upd ready.hotkeys 9 fun _ => chord a }
    ∀ a ∈ [HotkeyAction.focusNext, .leader], (s a).detector.state = .idle ∧ (s a).chordFor (.key 1) 1 = some (chord a) ∧
      (chord a).pass = false := by decide

/-- Presses that match nothing: of a TAP2 trigger and of another key in IDLE, of another key in TAP_WAIT, and without a FOLLOW entry in
LEADER; the release of a candidate. -/
theorem witness_FiredChord_other_presses :
    let tapWait := ready.setDetector ⟨.tapWait, some (.mod 4, 0), some 350, none⟩
    let leader := ready.setDetector ⟨.leader, none, none, some 2000⟩
    ready.detector.state = .idle ∧ ready.chordFor (.mod 4) 0 = none ∧ ready.chordFor (.key 4) 0 = none ∧
    (ready.hotkeys[0].enabled = true ∧ ready.hotkeys[0].kind = .tap2 ∧ ready.hotkeys[0].trigger = .mod 4) ∧
    (∀ n : Fin 24, ready.hotkeys[n].trigger ≠ .key 4) ∧ tapWait.detector.state = .tapWait ∧
    tapWait.detector.candidate ≠ some (.key 4, 0) ∧ leader.detector.state = .leader ∧
    (∀ n : Fin 24, leader.hotkeys[n].trigger ≠ .key 4) := by decide

/-- Two CHORD entries that match, the first taken, PASS set; a side-blind one under the other Ctrl. -/
theorem witness_FiredChord_with_pass :
    let chord (m : ModSet) (blind : Bool) : HotkeyEntry := ⟨true, .chord, m, blind, .key 1, .focusNext, 0, true, false⟩
    let s (m : ModSet) (blind : Bool) : State := { ready with hotkeys := upd (upd ready.hotkeys 9 fun _ => chord m blind) 10 fun _ => chord 1 true }
    (s 1 false).chordFor (.key 1) 1 = some (chord 1 false) ∧ (s 2 false).chordFor (.key 1) 16 = some (chord 1 true) ∧
    (chord 1 false).pass = true := by decide

/-- A second tap and a FOLLOW match with the power-on table, the first and the last FOLLOW entry. -/
theorem witness_FiredChord_second_tap_and_follow :
    let tapWait := ready.setDetector ⟨.tapWait, some (.mod 4, 0), some 350, none⟩
    let leader := ready.setDetector ⟨.leader, none, none, some 2000⟩
    tapWait.detector.state = .tapWait ∧ tapWait.detector.candidate = some (.mod 4, 0) ∧
    (tapWait.hotkeys[0].enabled = true ∧ tapWait.hotkeys[0].kind = .tap2 ∧ tapWait.hotkeys[0].trigger = .mod 4) ∧
    leader.detector.state = .leader ∧ (∀ n : Fin 24, (n = 1 ∨ n = 8) → leader.hotkeys[n].enabled = true ∧ leader.hotkeys[n].kind = .follow ∧
      ∀ m : Fin 24, m < n → leader.hotkeys[m].trigger ≠ leader.hotkeys[n].trigger) := by decide

/-- Each action of R73 to R77 with its cases: arguments at both ends, a target next to the focus target and one six away, an empty and a
full history, a window enabled and not, a preset refused, one that changes the shown set and one on the focus target without a region. -/
theorem witness_FiredChord_actions :
    let act (a : HotkeyAction) (n : Nat) : HotkeyEntry := ⟨true, .follow, 0, false, .key 4, a, n, false, false⟩
    let alone (l : List Target) : State := { ready with
      targets := Vector.ofFn fun t => { ready.targets[t] with power := if l.contains t then .active else .absent } }
    (∀ a ∈ [HotkeyAction.focus, .windowToggle, .preset, .wake], (act a 0).argument = 0 ∧ (act a 7).argument = (7 : Fin 8).val) ∧
    (∀ t : Target, t ≠ (alone [0]).focus.target → (alone [0]).targets[t].power = .absent) ∧
    ready.targets[ready.focus.target + 1].power ≠ .absent ∧
    ((alone [0, 7]).targets[(alone [0, 7]).focus.target + 7].power ≠ .absent ∧
      ∀ k : Fin 8, k ≠ 0 → k < 7 → (alone [0, 7]).targets[(alone [0, 7]).focus.target + k].power = .absent) ∧
    ready.focus.history = [] ∧ ({ ready with focus := { ready.focus with history := [3, 1] } } : State).focus.history = 3 :: [1] ∧
    windowed.active.windows[0].enabled = true ∧ windowed.active.windows[7].enabled = false := by decide

theorem witness_FiredChord_presets_and_wakes :
    let shows (f : Option Target) : State := { windowed with presets := upd windowed.presets 7 fun _ => ⟨0, f⟩ }
    let hidden (f : Option Target) : State := { (shows f) with windows := upd windowed.windows 0 fun r => { r with shown := false } }
    (shows none).presets[7].focus = none ∧ windowed.windows[0].shown = true ∧ (hidden none).windows[0].shown = false ∧
    (shows (some 3)).presets[7].focus = some 3 ∧ (shows (some 3)).focus.lock = false ∧ (shows (some 3)).targets[3].power ≠ .absent ∧
    (3 : Target) ≠ (shows (some 3)).focus.target ∧
    ({ hidden (some 6) with focus := ⟨6, .screen 0, .hotkey, false, true, []⟩ } : State).firstRegion 6 = none ∧
    (withTarget 7 fun p => { p with power := .suspended }).targets[7].power = .suspended ∧
    (withTarget 7 fun p => { p with power := .suspended }).targets[7].attached = true := by decide

theorem witness_DetectorDeadlinesReturnToIdle : ready.resetAsserted = false ∧
    (ready.setDetector ⟨.tapWait, some (.mod 4, 0), some 350, none⟩).detector.state = .tapWait ∧ ready.detector.state ≠ .tapWait ∧
    (ready.setDetector ⟨.leader, none, none, some 2000⟩).detector.state = .leader ∧ ready.detector.state ≠ .leader := by decide

/-- A following port with a key, a modifier and a button at T0, an open T1, and a pinned port. -/
theorem witness_FocusSwitchAccountsForEveryHeldItem : (1 : Target) ≠ holding.focus.target ∧ holding.consoles[0].pin = none ∧
    holding.keyStates[0].holds 0 (.key 30) = true ∧ holding.keyStates[0].holds 0 (.mod 1) = true ∧
    holding.keyStates[0].holds 0 (.button 0) = true ∧ holding.targets[1].power = .active ∧ (pinned []).consoles[0].pin ≠ none := by
  decide

/-- `ready` with CP0's accel threshold at n. -/
def threshold (n : Nat) : State := { ready with consoles := upd ready.consoles 0 fun c => { c with threshold := n } }

theorem witness_Gain_ranges : (threshold 0).TablesInRange ∧ (threshold 1023).TablesInRange := ⟨by decide, by decide⟩

/-- Magnitudes below, at and above the threshold, at both ends of the threshold's range. -/
theorem witness_GainIsChosenByTheMagnitude :
    let s := threshold
    let m (dx dy : BitVec 16) := dx.toInt.natAbs + dy.toInt.natAbs
    (s 0).consoles[0].threshold = 0 ∧ (s 1023).consoles[0].threshold = 1023 ∧ m 1000 (-22) < (s 1023).consoles[0].threshold ∧ (s 1023).consoles[0].threshold ≤ m 1000 (-23) ∧ m (-32768) (-32768) = 65536 := by
  decide

/-- Candidates before, within and past a rectangle on each axis. -/
theorem witness_ClampedCandidateLiesInTheRectangle :
    let r : Rect := ⟨100, 100, 1, 64⟩
    r.isEmpty = false ∧ (1599 : Int) / 16 < r.x ∧ (r.x : Int) ≤ 1600 / 16 ∧ (1615 : Int) / 16 < r.x + r.w ∧ (r.x : Int) + r.w ≤ 1616 / 16 ∧
    (1599 : Int) / 16 < r.y ∧ (r.y : Int) ≤ 1600 / 16 ∧ (2623 : Int) / 16 < r.y + r.h ∧ (r.y : Int) + r.h ≤ 2624 / 16 := by decide

/-- Points one past each edge of a rectangle, and one as far past two edges. -/
theorem witness_ClampedCandidate_overshoot :
    let r : Rect := ⟨100, 100, 1, 64⟩
    r.isEmpty = false ∧ ∀ c ∈ [((99 : Int), (100 : Int)), (101, 163), (100, 99), (100, 164), (103, 166)],
      ¬((r.x : Int) ≤ c.1 ∧ c.1 < (r.x : Int) + r.w ∧ (r.y : Int) ≤ c.2 ∧ c.2 < (r.y : Int) + r.h) := by decide

/-- A pointer event of CP1 without buttons. -/
def moving (dx dy : Int) : PointerEvent := ⟨1, dx, dy, 0, 0, 0, 0⟩

/-- The candidate's screen for an event of CP1. -/
def candidateOf (s : State) (dx dy : Int) : Option Place :=
  s.candidatePlace (s.glide.px + (s.scaledStep 1 dx dy).1, s.glide.py + (s.scaledStep 1 dx dy).2)

/-- T0 owns the base head of DO1 too. -/
def twoScreens : State := { ready with
  active := { ready.active with heads := upd ready.active.heads 1 fun h => { h with owner := some 0 } } }

/-- Focus on T3 in its window on T0's screen, the lock set. -/
def lockedInWindow : State := { windowed with
  focus := ⟨3, .window 0, .window, true, false, []⟩, glide := { windowed.glide with px := 27200, py := 16000 } }

theorem witness_ClampedCandidate_settles :
    (∀ s ∈ [ready, pressing, twoScreens, lockedInWindow], s.consoles[(moving 0 0).port].pin = none ∧ s.focus.detached = false ∧
      s.active.lookup (s.glide.px / 16) (s.glide.py / 16) = some ⟨0, 0, 0⟩) ∧
    ready.active.displayOwner 0 = some ready.focus.target ∧ ready.focus.lock = false ∧ (∀ r : Port, ready.ports[r].held = 0) ∧
    candidateOf ready 1 1 = some ⟨0, 0, 0⟩ ∧ candidateOf ready 0 (-2000) = none ∧ candidateOf ready 1000 0 = some ⟨0, 1, 1⟩ ∧
    twoScreens.active.displayOwner 1 = some twoScreens.focus.target ∧ candidateOf twoScreens 1000 0 = some ⟨0, 1, 1⟩ ∧
    ready.active.displayOwner 1 = some 1 ∧ (1 : Target) ≠ ready.focus.target := by decide

/-- Crossings: allowed at resistance 0, short of the resistance, and refused by the hold, the lock or glide enable. -/
theorem witness_ClampedCandidate_crossings :
    ready.desk.glideEnable = true ∧ ready.holdOwner = none ∧ ready.policies[1].glideIn = true ∧ ready.targets[1].power ≠ .absent ∧
    ready.desk.resistance ≤ 1 ∧ candidateOf pressing 8 0 = some ⟨0, 1, 1⟩ ∧ pressing.desk.resistance = 40 ∧
    (pressing.active.screen ⟨0, 0, 0⟩).overshoot 1923 540 = (4, .right) ∧
    ({ ready with holdOwner := some 2 } : State).holdOwner ≠ none ∧ ready.regionAt 2000 540 = some (.screen 1) ∧
    ready.regionTarget (.screen 1) = some 1 := by decide

/-- A held following button; the lock on a screen of another target, with a candidate in the window, outside it, and in no screen. -/
theorem witness_ClampedCandidate_held_and_locked :
    holding.consoles[0].pin = none ∧ holding.ports[0].held ≠ 0 ∧ lockedInWindow.focus.lock = true ∧
    (∀ r : Port, lockedInWindow.ports[r].held = 0) ∧ lockedInWindow.active.displayOwner 0 ≠ some lockedInWindow.focus.target ∧
    lockedInWindow.windowOfAt 3 1700 1000 0 = true ∧ (∀ v : Window, 0 < v → lockedInWindow.windowOfAt 3 1700 1000 v = false) ∧
    candidateOf lockedInWindow 1 1 = some ⟨0, 0, 0⟩ ∧ lockedInWindow.holdsPoint 3 1701 1001 = true ∧
    candidateOf lockedInWindow (-200) 0 = some ⟨0, 0, 0⟩ ∧ lockedInWindow.holdsPoint 3 1400 1000 = false ∧
    candidateOf lockedInWindow 0 2000 = none := by decide

/-- A press of B1: from a pinned port, with focus detached, over a screen, and over a view-only window. -/
theorem witness_ClampedCandidate_presses :
    let e : PointerEvent := ⟨0, 0, 0, 0, 1, 0, 1⟩
    let viewOnly : State := { lockedInWindow with
      focus := { lockedInWindow.focus with target := 0 }
      active := { windowed.active with windows := upd windowed.active.windows 0 fun w => { w with interactive := false } } }
    has e.presses 0 = true ∧ has e.buttons 0 = true ∧ (pinned []).consoles[e.port].pin = some 5 ∧ (pinned []).targets[5].power = .active ∧
    ({ ready with focus := { ready.focus with detached := true } } : State).consoles[e.port].pin = none ∧
    ready.swallows (ready.pointerEvent e).focus.region = false ∧ viewOnly.swallows (viewOnly.pointerEvent e).focus.region = true := by decide

/-- Stage 3: the focus target's own region; a window of T3 that motion enters, with and without a held button; a screen crossed into. -/
theorem witness_ClampedCandidate_regions :
    let window : State := { windowed with glide := { windowed.glide with px := 27200, py := 16000 } }
    let crossing : State := { ready with glide := { ready.glide with px := 32000 } }
    ready.regionAt 960 540 = some (.screen 0) ∧ ready.regionTarget (.screen 0) = some ready.focus.target ∧
    window.regionAt 1700 1000 = some (.window 0) ∧ window.regionTarget (.window 0) = some 3 ∧ 3 ≠ window.focus.target ∧
    window.holdsPoint window.focus.target 1700 1000 = true ∧ window.focus.lock = false ∧ (∀ q : Port, window.ports[q].held = 0) ∧
    ({ window with ports := holding.ports } : State).ports[0].held ≠ 0 ∧
    crossing.regionAt 2000 540 = some (.screen 1) ∧ crossing.regionTarget (.screen 1) = some 1 ∧ 1 ≠ crossing.focus.target := by decide

/-- Stage 4: B1 released where it is held, where it is suppressed and where it is neither; B1 pressed toward targets that take it, by a wake too,
and toward one that refuses it. -/
theorem witness_ClampedCandidate_buttons :
    let up : PointerEvent := ⟨0, 0, 0, 0, 0, 1, 0⟩
    let down : PointerEvent := ⟨0, 0, 0, 0, 1, 0, 1⟩
    let suppressed := ready.modPort 0 fun p => { p with held := 1, supButtons := 1 }
    let asleep : State := { withTarget 2 fun p => { p with power := .suspended } with
      policies := upd ready.policies 2 fun q => { q with wakePolicy := .onKey } }
    has up.releases 0 = true ∧ has up.presses 0 = false ∧ has up.releases 4 = false ∧ has up.presses 4 = false ∧
    has down.releases 0 = false ∧ has down.presses 0 = true ∧ down.presses ≠ 0 ∧
    holding.ports[0].suppressed (.button 0) = false ∧ holding.holder 0 (.button 0) = some 0 ∧
    suppressed.ports[0].suppressed (.button 0) = true ∧ ready.ports[0].suppressed (.button 0) = false ∧ ready.holder 0 (.button 0) = none ∧
    ready.targets[1].power = .active ∧ waking.targets[4].power = .waking ∧
    (asleep.targets[2].power = .suspended ∧ asleep.policies[2].wakePolicy = .onKey) ∧ State.reset.targets[1].power = .absent := by decide

theorem witness_AbsoluteReportsScaleTheTargetPoint :
    (withTarget 2 fun p => { p with mode := .absolute }).targets[2].mode = .absolute ∧ 1 ≤ 1 ∧ (1 : Nat) ≤ 32767 ∧
    (∀ m ∈ [Mode.boot, .report], ∀ ph ∈ [SyncPhase.cleared, .pending, .home, .approach, .complete],
      let p := (withTarget 2 fun p => { p with mode := m, sync := ⟨ph, 0, 0, 0⟩ }).targets[2]
      p.mode ≠ .absolute ∧ p.sync.phase = ph) := by decide

/-- A point in T3's window on T0's screen: T3's, in the window; T0's own screen there; and T3's with T0's window on top. -/
theorem witness_AbsoluteReports_translation :
    let under : State := { windowed with
      active := { windowed.active with windows := upd windowed.active.windows 1 fun _ => ⟨true, 0, 2, 1600, 900, 2, false⟩ }
      windows := upd windowed.windows 1 fun w => { w with shown := true }
      heads := upd windowed.heads 2 fun h => { h with lock := .locked, measured := some ⟨1920, 1080⟩ } }
    windowed.active.lookup 1700 1000 = some ⟨0, 0, 0⟩ ∧ windowed.regionAt 1700 1000 = some (.window 0) ∧
    windowed.windowOfAt 3 1700 1000 0 = true ∧ windowed.windowOnDesk 0 = some ⟨1600, 900, 320, 180⟩ ∧
    windowed.windowOfAt 0 1700 1000 0 = false ∧ windowed.active.displayOwner 0 = some 0 ∧ windowed.active.displays[0].base = some 0 ∧
    under.regionAt 1700 1000 = some (.window 1) ∧ under.windowOfAt 3 1700 1000 1 = false ∧ under.windowOfAt 3 1700 1000 0 = true ∧
    (∀ v : Window, 0 < v → under.windowOfAt 3 1700 1000 v = false) ∧ under.active.displayOwner 0 ≠ some 3 := by decide

/-- Delivery queues about the coalesce level and full, with a newest report that merges and one that does not. -/
theorem witness_AbsoluteReports_offers :
    let q (l : List Report) : State := withTarget 2 fun p => { p with queue := l }
    let keys : Report := .keys 0 [4]
    let rel : Report := .rel 1 (-1) 0 1 false
    (q []).targets[2].power = .active ∧ (q []).desk.coalesce = 12 ∧
    (q (List.replicate 11 keys ++ [rel])).targets[2].queue.length = 12 ∧
    (q (List.replicate 12 rel)).targets[2].queue = List.replicate 11 rel ++ [rel] ∧
    (q (List.replicate 11 keys ++ [.abs 1 2 3 0])).targets[2].queue = List.replicate 11 keys ++ [.abs 1 2 3 0] ∧
    (q (List.replicate 11 rel)).targets[2].queue.length < 12 ∧
    (q (List.replicate 31 keys)).targets[2].queue.length < 32 ∧ (q (List.replicate 31 keys)).targets[2].queue.getLast? = some keys ∧
    32 ≤ (q (List.replicate 32 keys)).targets[2].queue.length := by decide

/-- Hold queues with a pointer report between T_KEYS, below 16 reports and full, with and without one; and a target that is ABSENT. -/
theorem witness_AbsoluteReports_hold_offers :
    let q (l : List Report) : State := waking.modTarget 4 fun p => { p with hold := l }
    let keys : Report := .keys 0 [4]
    (q []).targets[4].power = .waking ∧
    (q [keys, .rel 1 2 3 1 false, keys]).targets[4].hold = [keys] ++ .rel 1 2 3 1 false :: [keys] ∧
    (q [keys, .abs 1 2 3 1]).targets[4].hold = [keys] ++ .abs 1 2 3 1 :: [] ∧ (∀ e ∈ [keys], e.isPointer = false) ∧
    (q (List.replicate 15 keys)).targets[4].hold.length < 16 ∧ 16 ≤ (q (List.replicate 16 keys)).targets[4].hold.length ∧
    (∀ e ∈ (q (List.replicate 16 keys)).targets[4].hold, e.isPointer = false) ∧
    (q (List.replicate 15 keys ++ [.abs 1 2 3 1])).targets[4].hold = List.replicate 14 keys ++ .keys 0 [4] :: [.abs 1 2 3 1] ∧
    (∀ e ∈ [Report.abs 1 2 3 1], e.isPointer = true) ∧ keys.isPointer = false ∧ State.reset.targets[0].power = .absent := by decide

theorem witness_TargetAttachAndReattachAreTaken : State.reset.resetAsserted = false ∧ State.reset.targets[0].attached = false ∧
    ready.resetAsserted = false ∧ ready.targets[7].attached = true := by decide

theorem witness_TeardownClearsTheTargetPort : waking.resetAsserted = false ∧ waking.targets[4].attached = true ∧
    ({ waking with holdOwner := some 4 } : State).holdOwner = some 4 ∧ ({ waking with holdOwner := some 3 } : State).holdOwner ≠ some 4 := by
  decide

/-- An ACTIVE focus target, an ACTIVE target without focus, and a WAKING one, in a layout in range. -/
theorem witness_ModeChangeRestatesTheTarget : ready.resetAsserted = false ∧ ready.targets[0].attached = true ∧ ready.active.InRange ∧
    ready.targets[0].power = .active ∧ 0 = ready.focus.target ∧ ready.targets[7].attached = true ∧ ready.targets[7].power = .active ∧
    7 ≠ ready.focus.target ∧ waking.resetAsserted = false ∧ waking.targets[4].attached = true ∧ waking.active.InRange ∧
    waking.targets[4].power ≠ .active ∧ Mode.boot ≠ .absolute := by decide

/-- The settled port of a target, as `witness_CreditIsAdded` and the two after it need it. -/
theorem witness_settled_port : ready.targets[7].sync.phase ≠ .home ∧ ready.targets[7].sync.phase ≠ .approach ∧
    ready.targets[7].resync = false ∧ ready.targets[7].stall = none ∧ ready.targets[7].queue = [] := by decide

theorem witness_CreditIsAddedAndStopsTheStallTimer : ready.resetAsserted = false ∧ ready.targets[7].attached = true ∧
    (∀ n ∈ [(1 : Byte), 32], 1 ≤ n.toNat ∧ n.toNat ≤ 32) := by decide

theorem witness_LedStateIsSetAndShown : ready.resetAsserted = false ∧ ready.targets[7].attached = true ∧
    (0 : Byte).toNat < 32 ∧ (31 : Byte).toNat < 32 := by decide

theorem witness_PowerFramesSuspendOrAreIgnored :
    let sus := withTarget 4 fun p => { p with power := .suspended }
    ready.resetAsserted = false ∧ ready.targets[4].attached = true ∧ ready.targets[4].power = .active ∧
    sus.resetAsserted = false ∧ sus.targets[4].attached = true ∧ sus.targets[4].power = .suspended ∧
    waking.resetAsserted = false ∧ waking.targets[4].attached = true ∧ waking.targets[4].power = .waking := by decide

/-- A WAKING target with held reports and a PENDING record, in REPORT mode. -/
theorem witness_ResumptionMovesTheHoldQueue : waking.resetAsserted = false ∧ waking.targets[4].attached = true ∧
    waking.targets[4].power = .waking ∧ waking.targets[4].Bounded ∧ waking.targets[4].PowerSound ∧ waking.active.InRange ∧
    waking.targets[4].sync.phase = .pending := by decide

/-- A SUSPENDED target in ABSOLUTE mode with nothing held. -/
def restingAbs : State := withTarget 4 fun p => { p with power := .suspended, mode := .absolute, resync := true }

/-- `waking` with a CLEARED record, its newest held report the view. -/
def wakingSame : State :=
  waking.modTarget 4 fun p => { p with hold := [.rel 1 2 0 0 false, .keys 0 []], sync := ⟨.cleared, 0, 0, 0⟩ }

theorem witness_Resumption_with_a_cleared_record :
    restingAbs.resetAsserted = false ∧ restingAbs.targets[4].attached = true ∧ restingAbs.targets[4].power = .suspended ∧
      restingAbs.targets[4].Bounded ∧ restingAbs.targets[4].PowerSound ∧ restingAbs.active.InRange ∧
      restingAbs.targets[4].sync.phase = .cleared ∧ restingAbs.targets[4].hold.getLast? ≠ some (.keys 0 []) := by decide

theorem witness_Resumption_with_the_view_held : wakingSame.targets[4].power = .waking ∧
    wakingSame.targets[4].Bounded ∧ wakingSame.targets[4].PowerSound ∧ wakingSame.targets[4].sync.phase = .cleared ∧
      wakingSame.targets[4].hold.getLast? = some (.keys (wakingSame.view 4).1 (wakingSame.view 4).2) := by decide

theorem witness_ControlFrameEntersTheInboxOrIsBusy : ready.resetAsserted = false ∧ ready.targets[0].attached = true ∧
    (List.replicate 60 (0 : Byte)).length ≤ 60 ∧ ready.targets[0].inbox = none ∧ (asked 2 []).resetAsserted = false ∧
    (asked 2 []).targets[0].attached = true ∧ (asked 2 []).targets[0].inbox ≠ none := by decide

theorem witness_SendTakesTheHeadAndOneCredit :
    let s := withTarget 1 fun p => { p with queue := [.keys 0 [4], .keys 0 []], credit := 1 }
    s.resetAsserted = false ∧ s.targets[1].attached = true ∧ s.targets[1].queue = .keys 0 [4] :: [.keys 0 []] ∧ 0 < s.targets[1].credit ∧
    (withTarget 1 fun p => { p with queue := [.keys 0 [4]] }).targets[1].credit = 0 ∧ ready.targets[1].queue = [] := by decide

/-- Ports at the end of an event: a home step due, the last home step gone, an approach short of the point and at it; a resync with two
places, one and none. -/
theorem witness_Send_end_of_event :
    let s (ph : SyncPhase) (k x : Nat) (l : Nat) (r : Bool) : State := withTarget 1 fun p => { p with
      sync := ⟨ph, k, x, 0⟩, queue := List.replicate l (.keys 0 [4]), resync := r }
    (∀ l ∈ [0, 31], (s .home 1 0 l false).targets[1].queue.any Report.isSync = false ∧ (s .home 1 0 l false).targets[1].queue.length < 32) ∧
    ((s .approach 0 0 0 false).portEnd 1).targets[1].sync.phase = .complete ∧
    ((s .home 0 5 0 false).portEnd 1).targets[1].sync.phase = .complete ∧
    ((s .approach 0 9 0 false).portEnd 1).targets[1].queue = [.rel (-9) 0 0 0 true] ∧
    ((s .cleared 0 0 30 true).portEnd 1).targets[1].resync = false ∧ ((s .cleared 0 0 31 true).portEnd 1).targets[1].resync = true ∧
    ((s .cleared 0 0 32 true).portEnd 1).targets[1].queue.length = 32 := by decide

theorem witness_StallFlushesAndResyncs :
    let s := withTarget 1 fun p => { p with queue := List.replicate 32 (.keys 0 [4]), stall := some 250 }
    s.resetAsserted = false ∧ s.targets[1].stall = some 250 ∧ s.targets[1].power = .active := by decide

theorem witness_WakeTimerRetriesThenFails :
    let last := waking.modTarget 4 fun p => { p with retry := 1 }
    (waking.resetAsserted = false ∧ waking.targets[4].attached = true ∧ waking.targets[4].power = .waking ∧
      waking.targets[4].wakeTimer = some 8 ∧ waking.targets[4].retry < waking.policies[4].wakeRetry) ∧
    (last.resetAsserted = false ∧ last.targets[4].attached = true ∧ last.targets[4].power = .waking ∧
      last.targets[4].wakeTimer = some 8 ∧ last.policies[4].wakeRetry ≤ last.targets[4].retry) := by decide

theorem witness_IdleTimerRestsTheDesk :
    let on (s : State) : State := { s with idleTimer := some 5 }
    (∀ s ∈ [waking, ready, ready.raise .laneError 0], (on s).resetAsserted = false ∧ (on s).idleTimer = some 5) ∧
    (on waking).targets[4].power = .waking ∧ ({ on ready with holdOwner := some 0 } : State).holdOwner ≠ none ∧
    (on (ready.raise .laneError 0)).notices[(3 : Fin 8)] ≠ 0 ∧ (∀ t : Target, (on ready).targets[t].power ≠ .waking) ∧
    (on ready).holdOwner = none ∧ ∀ k : Fin 8, (on ready).notices[k] = 0 := by decide

theorem witness_SignalChangesTheLockState : ready.resetAsserted = false ∧ ready.heads[3].lock = .noSignal ∧
    locking.resetAsserted = false ∧ locking.heads[3].lock = .locking ∧ locking.heads[3].lock ≠ .noSignal ∧
    windowed.resetAsserted = false ∧ windowed.heads[3].lock = .locked := by decide

/-- Geometries at both ends of the range; a locking head with another candidate than a frame past each end; a head locked at the frame's
size and at another. -/
theorem witness_FrameEndMovesTheHead :
    ready.resetAsserted = false ∧ ready.heads[3].lock = .noSignal ∧
    (∀ g ∈ [(⟨1, 32767⟩ : Geometry), ⟨32767, 1⟩], 1 ≤ g.w ∧ g.w ≤ 32767 ∧ 1 ≤ g.h ∧ g.h ≤ 32767 ∧
      windowed.heads[3].measured ≠ some (measuredGeometry g)) ∧
    (∀ g ∈ [(⟨1, 32767⟩ : Geometry), ⟨0, 1⟩, ⟨32768, 1⟩, ⟨1, 0⟩, ⟨1, 32768⟩], locking.heads[3].candidate ≠ some g) ∧
    locking.resetAsserted = false ∧ locking.heads[3].lock = .locking ∧ windowed.resetAsserted = false ∧
    windowed.heads[3].lock = .locked ∧ windowed.heads[3].measured = some (measuredGeometry ⟨1920, 1080⟩) := by decide

/-- A head that locks at a geometry too tall for its display, and one that locks again at the geometry measured before. -/
theorem witness_SecondEqualFrameLocksTheHead :
    let again := { locking with heads := upd locking.heads 3 fun x => { x with measured := some ⟨1920, 1200⟩ } }
    locking.resetAsserted = false ∧ measuredGeometry ⟨1920, 1200⟩ = ⟨1920, 1200⟩ ∧ locking.heads[3].lock = .locking ∧
    locking.heads[3].candidate = some ⟨1920, 1200⟩ ∧ locking.active.displays[3].enabled = true ∧
    locking.active.displays[3].base = some 3 ∧ locking.active.displays[3].height < 1200 / 2 ^ locking.active.displays[3].shift ∧
    again.heads[3].lock = .locking ∧ again.heads[3].candidate = some ⟨1920, 1200⟩ ∧ again.heads[3].measured = some (measuredGeometry ⟨1920, 1200⟩) := by
  decide

theorem witness_DisplayFrameStartChoosesTheOutput :
    let off := { ready with active := { ready.active with displays := upd ready.active.displays 0 fun x => { x with enabled := false } } }
    let bare := { ready with active := { ready.active with displays := upd ready.active.displays 0 fun x => { x with base := none } } }
    (off.resetAsserted = false ∧ off.active.displays[0].enabled = false) ∧
    (({ ready with deskState := .idle } : State).resetAsserted = false ∧ ({ ready with deskState := .idle } : State).deskState = .idle) ∧
    (bare.resetAsserted = false ∧ bare.active.displays[0].enabled = true ∧ bare.deskState = .awake ∧ bare.active.displays[0].base = none) ∧
    (windowed.resetAsserted = false ∧ windowed.active.displays[3].enabled = true ∧ windowed.deskState = .awake ∧
      windowed.active.displays[3].base = some 3 ∧ windowed.heads[3].lock = .locked) ∧
    (∀ n ∈ [0, 119, 120, 65535], (lost n).resetAsserted = false ∧ (lost n).active.displays[0].enabled = true ∧
      (lost n).deskState = .awake ∧ (lost n).active.displays[0].base = some 0 ∧ (lost n).heads[0].lock ≠ .locked ∧
      (lost n).heads[0].latest ≠ none) ∧
    (lost 119).heads[0].sinceLoss < (lost 119).desk.holdFrames ∧ (lost 120).desk.holdFrames ≤ (lost 120).heads[0].sinceLoss ∧
    ready.heads[1].latest = none := by decide

/-- Displays with no candidate, with one alone, with two all granted, and with the first of two refused; a base frame drawn. -/
theorem witness_DisplayFrameStart_rotations :
    let two : State := { windowed with
      active := { windowed.active with windows := upd windowed.active.windows 1 fun _ => ⟨true, 0, 2, 0, 0, 2, true⟩ }
      windows := upd windowed.windows 1 fun w => { w with shown := true }
      heads := upd windowed.heads 2 fun h => { h with lock := .locked, measured := some ⟨1920, 1080⟩ } }
    let poor : State := { two with budgets := upd two.budgets 0 fun _ => 0 }
    let tried (s : State) := grants (fun w => ceilDiv (s.windowRect w).h 16) (s.budgets[0] - s.baseCost 0) (s.candidates 0)
    ready.candidates 0 = [] ∧ windowed.candidates 0 = [0] ∧ (∀ q ∈ tried windowed, q.2 = true) ∧
    two.candidates 0 = 0 :: 1 :: [] ∧ (∀ q ∈ tried two, q.2 = true) ∧
    tried poor = [] ++ (0, false) :: [(1, false)] ∧ (3 : Window) ∉ two.candidates 0 ∧
    (two.active.displays[0].base = some 0 ∧ (lost 119).heads[0].latest ≠ none) := by decide

/-- A candidate that turns stale at the frame start. -/
theorem witness_DisplayFrameStart_stale_candidate :
    let s : State := { windowed with windows := upd windowed.windows 0 fun r => { r with age := 29 } }
    (0, true) ∈ grants (fun w => ceilDiv (s.windowRect w).h 16) (s.budgets[0] - s.baseCost 0) (s.candidates 0) ∧
    (s.settleWindow (0, true)).windows[0].stale = true ∧ s.windows[0].stale = false := by decide

/-- The last granted and the refused window of a shared budget. -/
theorem witness_GrantsStayWithinTheRemainder :
    grants (fun w => if w = 2 then 9 else 17) 32 [0, 1, 2] = [(0, true)] ++ (1, false) :: [(2, true)] ∧
    grants (fun _ => 16) 32 [0, 1, 2] = [(0, true)] ++ (1, true) :: [(2, false)] := by decide

/-- A window with no content and a complete frame; one without a frame, at the ages about its stale frames; one already stale. -/
theorem witness_CandidateContentAndAgeAreSettled :
    let f : VideoFrame := ⟨⟨1920, 1080⟩, 7, 1⟩
    let fresh := { windowed with heads := upd windowed.heads 3 fun x => { x with latest := some f } }
    let aged (n : Nat) (st : Bool) := { windowed with windows := upd windowed.windows 0 fun r => { r with age := n, stale := st } }
    1 ≤ windowed.desk.staleFrames ∧ fresh.heads[fresh.active.windows[0].source].latest = some f ∧
    fresh.windows[0].content.map VideoFrame.serial ≠ some f.serial ∧
    windowed.heads[windowed.active.windows[0].source].latest = none ∧
    (aged 28 false).windows[0].stale = false ∧ ¬(aged 28 false).desk.staleFrames ≤ min 255 ((aged 28 false).windows[0].age + 1) ∧
    (aged 29 false).desk.staleFrames ≤ min 255 ((aged 29 false).windows[0].age + 1) ∧ (aged 255 true).windows[0].stale = true := by
  decide

/-- Every row of the engine meets a sender without permit; a bad frame meets one with permit. -/
theorem witness_ControlEngineRefusesWithoutEffect :
    let bare (s : State) : State := { s with policies := upd s.policies 0 fun r => { r with permit := false } }
    (∀ fk ∈ [((⟨9, 0, [0, 0]⟩ : ControlFrame), some ControlCommand.tableRead), (⟨9, 1, [8, 0]⟩, none), (⟨9, 2, []⟩, some .layoutHold),
        (⟨9, 3, []⟩, some .layoutRelease), (⟨9, 4, []⟩, some .layoutAbandon), (⟨9, 5, [7]⟩, some .focusSet), (⟨9, 6, [7]⟩, some .wake),
        (⟨9, 7, [7, 1]⟩, some .windowShow), (⟨9, 8, [0]⟩, some .statusRead), (⟨9, 9, []⟩, some .noticeRead),
        (⟨9, 10, [8, 0, 1]⟩, some .noticeClear), (⟨9, 11, [1]⟩, some .noticeSubscribe), (⟨9, 12, []⟩, some .deskReset),
        (⟨9, 13, []⟩, none), (⟨9, 1, [9, 0]⟩, some .tableWrite)],
      (bare (asked fk.1.command fk.1.args)).policies[0].permit = false ∧
      (bare (asked fk.1.command fk.1.args)).ControlTurn 0 fk.1 fk.2) ∧
    (asked 13 []).ControlTurn 0 ⟨9, 13, []⟩ none ∧ (asked 13 []).policies[0].permit = true := by decide

/-- Entry kinds, a table number above 8, and indexes at and below a table's count. -/
theorem witness_TableReadReturnsTheRecord :
    (∀ a ∈ [[(0 : Byte), 2], [8, 0], [9, 0], [255, 255], [6, 24], [6, 23]],
      (asked 0 a).Serves 0 ⟨9, 0, a⟩ .tableRead) ∧
    (∃ e, tableEntry 6 23 = .ok e) ∧ 8 < (9 : Byte).toNat ∧ 24 ≤ (24 : Byte).toNat ∧ (23 : Byte).toNat < 24 :=
  ⟨by decide, ⟨_, rfl⟩, by decide, by decide, by decide⟩

/-- A write refused, one accepted, one whose layout-class fields are written under a hold, and one that ends the hold. -/
theorem witness_TableWriteIsRefusedWholeOrReadBack :
    let desk : List Byte := [1, 0, 0, 1, 94, 7, 208, 8, 0, 250, 0, 1, 12, 0, 120, 31]
    let target (permit : Byte) : List Byte := [7, 128, 4, 56, 0, 1, 1, permit]
    let gap : List Byte := [255, 0, 1, 0, 1, 2, 0, 0, 0, 0]
    let held (a : List Byte) := { asked 1 a with holdOwner := some 0 }
    (∀ a ∈ [[8, 0] ++ desk, [8, 0, 2] ++ desk.drop 1, [4, 0] ++ target 0, [3, 11] ++ gap],
      (held a).Serves 0 ⟨9, 1, a⟩ .tableWrite) ∧
    ready.refusal 0 .desk (splitFields deskSpecs (2 :: desk.drop 1)) = some (.badValue, 1) ∧
    ready.refusal 0 .desk (splitFields deskSpecs desk) = none ∧
    (held []).refusal 0 (.heads 11) (splitFields headSpecs gap) = none ∧
    (held []).refusal 0 (.targets 0) (splitFields targetSpecs (target 0)) = none ∧
    fieldAt (splitFields targetSpecs (target 0)) 5 = 0 ∧ fieldAt (splitFields targetSpecs (target 1)) 5 ≠ 0 := by decide

/-- A table past the last; an index past each table's last entry; a pin kept, set and cleared; desk idle kept, set and cleared. -/
theorem witness_TableWrite_values_pins_and_idle_timer :
    let console (pin : Byte) : List Byte := [pin, 16, 24, 0, 12]
    let desk (idle : Byte) : List Byte := [1, 0, 0, 1, 94, 7, 208, 8, 0, 250, idle, 1, 12, 0, 120, 30]
    let s (pin : Option Target) (idle : Nat) (a : List Byte) : State := { asked 1 a with
      consoles := upd ready.consoles 1 fun c => { c with pin := pin }, desk := { powerOnDesk with deskIdle := idle } }
    (∀ a ∈ [(9 : Byte) :: 0 :: [], 0 :: 3 :: List.replicate 27 0, 8 :: 1 :: desk 0, [5, 1] ++ console 255, [5, 1] ++ console 7, [8, 0] ++ desk 0, [8, 0] ++ desk 240],
      (s none 0 a).Serves 0 ⟨9, 1, a⟩ .tableWrite) ∧
    8 < (9 : Byte).toNat ∧ 3 ≤ (3 : Byte).toNat ∧ 1 ≤ (1 : Byte).toNat ∧
    (∀ q ∈ [none, some (7 : Target)], ∀ b ∈ [(255 : Byte), 7],
      (s q 0 []).refusal 0 (.consoles 1) (splitFields consoleSpecs (console b)) = none) ∧
    numOpt 8 (fieldAt (splitFields consoleSpecs (console 255)) 0) = none ∧
    numOpt 8 (fieldAt (splitFields consoleSpecs (console 7)) 0) = some 7 ∧
    (∀ n ∈ [0, 240], ∀ b ∈ [(0 : Byte), 240], (s none n []).refusal 0 .desk (splitFields deskSpecs (desk b)) = none) ∧
    fieldAt (splitFields deskSpecs (desk 0)) 6 = 0 ∧ fieldAt (splitFields deskSpecs (desk 240)) 6 = 240 := by decide

theorem witness_LayoutHoldOpensKeepsOrIsBusy : ∀ o ∈ [none, some (0 : Target), some 7],
    ({ asked 2 [] with holdOwner := o } : State).Serves 0 ⟨9, 2, []⟩ .layoutHold := by decide

theorem witness_LayoutAbandonClosesTheHold : ∀ o ∈ [none, some (0 : Target), some 7],
    ({ asked 4 [] with holdOwner := o } : State).Serves 0 ⟨9, 4, []⟩ .layoutAbandon := by decide

/-- No hold; an edit layout that fails a check; a valid one with a window newly enabled, one changed, one kept and one disabled. -/
theorem witness_LayoutReleaseIsRefusedOrPutInForce :
    let w (d : Display) (h : Head) : WindowRec := ⟨true, d, h, 0, 0, 1, false⟩
    let windows (s : State) (l : List WindowRec) : Layout :=
      { s.active with windows := Vector.ofFn fun i => l.getD i.val s.active.windows[i] }
    let bad : Layout := { ready.active with tiers := upd ready.active.tiers 0 fun t => { t with used := false } }
    let off : WindowRec := ⟨false, 0, 0, 0, 0, 1, false⟩
    let s (L : Layout) : State := { asked 3 [] with holdOwner := some 0, active := windows ready [off, w 1 2, w 2 3, w 3 4], edit := L }
    let good := windows ready [w 0 1, w 1 4, w 2 3, off]
    (asked 3 []).Serves 0 ⟨9, 3, []⟩ .layoutRelease ∧ (asked 3 []).holdOwner ≠ some 0 ∧
    (s bad).Serves 0 ⟨9, 3, []⟩ .layoutRelease ∧ bad.firstFailure = some (.tierOrder, 0) ∧
    (s good).Serves 0 ⟨9, 3, []⟩ .layoutRelease ∧ good.valid = true ∧
    (s good).active.windows[0].enabled = false ∧ good.windows[0].enabled = true ∧
    (s good).active.windows[1].source ≠ good.windows[1].source ∧ (s good).active.windows[2] = good.windows[2] ∧
    (s good).active.windows[3].enabled = true ∧ good.windows[3].enabled = false := by decide

/-- T6 in focus and detached, releasing an edit layout it holds. -/
def releasing (L : Layout) : State := { withTarget 6 fun p => { p with inbox := some ⟨9, 3, []⟩ } with
  holdOwner := some 6, edit := L, focus := ⟨6, .screen 0, .hotkey, false, true, []⟩
  glide := { ready.glide with detached := some (100, 200) } }

/-- A following port with focus detached. -/
theorem witness_ClampedCandidate_detached : (releasing ready.active).consoles[(moving 3 (-3)).port].pin = none ∧
    (releasing ready.active).focus.detached = true ∧ (releasing ready.active).glide.detached = some (100, 200) := by decide

/-- Windows disabled before and after, one with another source and one without; the pointer's display placed after a release, and gone. -/
theorem witness_LayoutRelease_rehomes_the_pointer :
    let L := ready.active
    let other := { L with windows := upd L.windows 7 fun r => { r with source := 3 } }
    let gone := { L with
      tiers := upd L.tiers 0 fun t => { t with slots := upd t.slots 0 fun _ => ⟨true, 1920, none⟩ }
      displays := upd L.displays 0 fun d => { d with enabled := false } }
    (∀ E ∈ [other, gone], (releasing E).Serves 6 ⟨9, 3, []⟩ .layoutRelease ∧ E.valid = true) ∧
    L.windows[7].enabled = false ∧ other.windows[7].enabled = false ∧ L.windows[7].source ≠ other.windows[7].source ∧
    L.windows[6] = other.windows[6] ∧ L.lookup ready.pointer.1 ready.pointer.2 = some ⟨0, 0, 0⟩ ∧
    other.placeOf 0 = some ⟨0, 0, 0⟩ ∧ gone.placeOf 0 = none ∧ gone.firstScreen = some ⟨0, 1, 1⟩ := by decide

/-- A detached focus whose target has no region after the release, and one whose target has. -/
theorem witness_LayoutRelease_of_a_detached_focus :
    let L := ready.active
    let given := { L with displays := upd L.displays 5 fun d => { d with base := some 6 } }
    (releasing given).Serves 6 ⟨9, 3, []⟩ .layoutRelease ∧ given.valid = true ∧ (releasing L).focus.detached = true ∧
    (after .layoutRelease (releasing L)).firstRegion 6 = none ∧
    (after .layoutRelease (releasing L)).regionAt 960 540 = some (.screen 0) ∧
    ((after .layoutRelease (releasing given)).firstRegion 6).isSome = true := by decide

/-- A target with a region, and one whose head no display shows; a number at the end of the range and one past it. -/
theorem witness_FocusSetDirectsTheFocus : (∀ b ∈ [(0 : Byte), 3, 6, 7, 8],
      (asked 5 [b]).Serves 0 ⟨9, 5, [b]⟩ .focusSet) ∧
    (asked 5 [7]).firstRegion 7 = none ∧ (asked 5 [3]).firstRegion 3 = some (6720, 540) ∧ (7 : Target) ≠ (asked 5 [7]).focus.target ∧
    (asked 5 [3]).regionAt 6720 540 = some (.screen 3) ∧ (asked 5 [7]).regionAt 960 540 = some (.screen 0) ∧
    (asked 5 [0]).firstRegion (asked 5 [0]).focus.target = some (960, 540) ∧
    (releasing ready.active).firstRegion (releasing ready.active).focus.target = none ∧ 7 < (8 : Byte).toNat := by decide

theorem witness_WakeCommandStartsASuspendedTarget :
    let s (w : Power) := (asked 6 [7]).modTarget 7 fun p => { p with power := w }
    (∀ w ∈ [Power.active, .suspended, .waking, .absent], (s w).Serves 0 ⟨9, 6, [7]⟩ .wake ∧ (s w).targets[7].power = w ∧
      (s w).targets[7].attached = true) ∧ (asked 6 [8]).Serves 0 ⟨9, 6, [8]⟩ .wake := by decide

/-- The rows of R60: the focus target's own region; an elective switch, with the lock and with a button held; an obliged one. -/
theorem witness_WindowShow_reevaluation :
    let elective : State := { windowed with glide := { windowed.glide with px := 27200, py := 16000 } }
    let obliged : State := { windowed with focus := { windowed.focus with target := 5 } }
    ready.regionAt 960 540 = some (.screen 0) ∧ ready.regionTarget (.screen 0) = some ready.focus.target ∧
    elective.regionAt 1700 1000 = some (.window 0) ∧ elective.regionTarget (.window 0) = some 3 ∧ 3 ≠ elective.focus.target ∧
    elective.focus.detached = false ∧ elective.focus.lock = false ∧ elective.holdsPoint elective.focus.target 1700 1000 = true ∧
    (∀ q : Port, elective.ports[q].held = 0) ∧ holding.ports[0].held ≠ 0 ∧
    obliged.regionTarget (.screen 0) = some 0 ∧ obliged.holdsPoint 5 960 540 = false := by decide

theorem witness_WindowShowSetsTheMembership :
    (∀ a ∈ [[(8 : Byte), 0], [7, 2], [7, 1]], (asked 7 a).Serves 0 ⟨9, 7, a⟩ .windowShow) ∧
    (asked 7 [7, 1]).active.windows[7].enabled = false := by decide

/-- W0 enabled and shown: asked to show it, nothing changes; asked to hide it, the membership changes. -/
theorem witness_WindowShow_of_an_enabled_window :
    let s (b : Byte) : State := { asked 7 [0, b] with
      active := { ready.active with windows := upd ready.active.windows 0 fun _ => ⟨true, 0, 3, 1600, 900, 2, true⟩ }
      windows := upd ready.windows 0 fun w => { w with shown := true } }
    (∀ b ∈ [(0 : Byte), 1], (s b).Serves 0 ⟨9, 7, [0, b]⟩ .windowShow ∧ (s b).active.windows[0].enabled = true ∧
      (s b).windows[0].shown = true) ∧ true = decide ((1 : Byte) = 1) ∧ true ≠ decide ((0 : Byte) = 1) := by decide

theorem witness_StatusReadReportsAndChangesNothing : ready.glide.px < 2 ^ 24 ∧ ready.glide.py < 2 ^ 24 ∧
    ready.glide.detached = none ∧ (releasing ready.active).glide.detached = some (100, 200) ∧ 200 < 2 ^ 24 ∧
    ∀ b ∈ [(0 : Byte), 1, 0x0F, 0x10, 0x17, 0x18, 0x1F, 0x20, 0x23, 0x24, 0xFF], (asked 8 [b]).Serves 0 ⟨9, 8, [b]⟩ .statusRead := by decide

/-- A section half read and one read to its end, each with the frame to be answered, and one whose sender was torn down. -/
theorem witness_StatusRead_reads :
    (reading 1 (asked 8 [0x17])).executing = some ⟨0, some ⟨9, 8, [0x17]⟩, .status [.targetPort 7] (List.replicate 9 0)⟩ ∧
    (reading 2 (asked 8 [0x17])).executing = some ⟨0, some ⟨9, 8, [0x17]⟩, .status [] (List.replicate 12 0)⟩ ∧
    (reading 2 (asked 8 [0x17])).resetAsserted = false ∧ (reading 2 (asked 8 [0x17])).targets[0].attached = true ∧
    (after (.pDetach 0) (reading 2 (asked 8 [0x17]))).executing = some ⟨0, none, .status [] (List.replicate 12 0)⟩ := by decide

/-- Kinds at both ends of the range and past them; a subject of the kind, and one it does not have; values 0, 1 and 2. -/
theorem witness_NoticeCommandsReadClearAndSubscribe :
    (asked 9 []).Serves 0 ⟨9, 9, []⟩ .noticeRead ∧
    (∀ a ∈ [[(0 : Byte), 0, 0], [9, 0, 0], [1, 0, 128], [8, 1, 0]], (asked 10 a).Serves 0 ⟨9, 10, a⟩ .noticeClear) ∧
    (1 : Byte).toNat = NoticeKind.wakeFailed.index.val + 1 ∧ (8 : Byte).toNat = NoticeKind.focusChanged.index.val + 1 ∧
    ((0 : Byte) ++ (128 : Byte)) &&& ~~~NoticeKind.wakeFailed.subjects = 0 ∧
    ((1 : Byte) ++ (0 : Byte)) &&& ~~~NoticeKind.focusChanged.subjects ≠ 0 ∧
    ∀ v ∈ [(0 : Byte), 1, 2], (asked 11 [v]).Serves 0 ⟨9, 11, [v]⟩ .noticeSubscribe := by decide

theorem witness_DeskResetReturnsToAKnownState : (asked 12 []).Serves 0 ⟨9, 12, []⟩ .deskReset ∧ (asked 12 []).LayoutSound := by decide

/-- The six stages in their order, each with the frame to be answered. -/
theorem witness_DeskReset_stages :
    (∀ q ∈ [(1, ResetStage.focusUnit), (2, .targetPorts), (3, .compositor), (4, .layoutStore), (5, .noticeRecord), (6, .answer)],
      (inParts q.1 (asked 12 [])).executing = some ⟨0, some ⟨9, 12, []⟩, .reset q.2⟩ ∧ (inParts q.1 (asked 12 [])).resetAsserted = false ∧
      (inParts q.1 (asked 12 [])).targets[0].attached = true) ∧
    (inParts 4 (after (.targetLaneLoss 0) (inParts 2 (asked 12 [])))).executing = some ⟨0, none, .reset .answer⟩ := by decide

theorem witness_DeskReset_layout : (inParts 1 (asked 12 [])).LayoutSound := by decide

theorem witness_LaneFramesAreReadBack :
    ∀ i ∈ [Instr.cKeys 3 255 .rollover, .cKeys 0 0 (.keys (List.replicate 12 30)), .cMotion 1 (-32768) 32767 128 255,
      .pControl 7 1 2 (List.replicate 60 3), .badConsoleFrame 0 [], .badTargetFrame 0 [1]],
      i.wf = true ∧ (laneFrame i).isSome = true := by decide

/-- A report, a payload of 62 bytes, and the altered frame of spec 10.1. -/
theorem witness_FrameCheckPassesWholeAndRefusesAlteredFrames : (OutFrame.report 0 (.keys 0 [4])).payload.length ≤ 62 ∧
    (OutFrame.reply 0 9 .ok (List.replicate 60 0)).payload.length ≤ 62 ∧
    ([0, 40, 255] ++ (253 : Byte) :: [0, 0]).length ≤ 62 ∧ (252 : Byte) ≠ 253 := by decide

/-! ### The invariants: a sound state, and a step from it that answers -/

/-- `waking` with a resumption in front. -/
def resuming : State := { waking with pending := [.pPower 4 .active] }

theorem witness_EveryStepKeepsTheLayoutSound :
    let s := { asked 2 [] with pending := [.layoutHold] }
    s.LayoutSound ∧ s.TablesInRange ∧ step s = .next (after .layoutHold (asked 2 [])) := ⟨by decide, by decide, rfl⟩

theorem witness_bounded : resuming.Bounded := by
  refine ⟨fun p => ⟨?_, ?_, ?_, ?_⟩, by decide⟩
  · revert p; decide
  · revert p; decide
  · revert p; decide
  · have h : resuming.ports[p].fifo = [] := by revert p; decide
    rw [h]
    exact fun e he => nomatch he

theorem witness_EveryStepKeepsThePortsSound : resuming.TablesInRange ∧ resuming.Bounded ∧
    resuming.PowerSound ∧ resuming.ExecutionSound ∧ step resuming = .next (after (.pPower 4 .active) waking) :=
  ⟨by decide, witness_bounded, by decide, by decide, rfl⟩

/-- A DESK_RESET in progress that is sound. -/
theorem witness_DeskReset_sound : (inParts 3 (asked 12 [])).ExecutionSound ∧ (inParts 3 (asked 12 [])).executing ≠ none := by decide

/-- A STATUS_READ being executed that is sound. -/
theorem witness_StatusRead_sound : (reading 3 (asked 8 [0])).ExecutionSound ∧ (reading 3 (asked 8 [0])).executing ≠ none := by decide

theorem witness_EveryStepKeepsHistoryAndTablesSound :
    let s := { queued [.keys 0 [30] false] with pending := [.mergeTakeEntry], focus := ⟨0, .screen 0, .reset, false, false, [1, 2, 3, 4]⟩ }
    s.HistorySound ∧ s.KeysSound ∧ (after .mergeTakeEntry s).keyStates[0].keys = [⟨30, 1, 0⟩] ∧ answers .mergeTakeEntry s = true := by
  decide

/-- `ready` with key 30 of CP0 held at T0 and nothing else held, and a release-all entry to take. -/
def oneKey : State := { ready with
  ports := upd ready.ports 0 fun p => { p with snapKeys := [30], fifo := [.releaseAll] }
  keyStates := upd ready.keyStates 0 fun k => { k with keys := [⟨30, 1, 0⟩], counter := 1 }
  pending := [.mergeTakeEntry] }

theorem witness_EveryStepKeepsTheAccountExact : oneKey.AccountExact := by
  intro p i
  cases i with
  | key k =>
    have h1 : oneKey.ports[p].supKeys = [] := by revert p; decide
    have h2 : oneKey.ports[p].snapKeys = if p = 0 then [30] else [] := by revert p; decide
    have h3 : ∀ t : Target, oneKey.keyStates[t].keys = if t = 0 then [⟨30, 1, 0⟩] else [] := by decide
    have h4 : has 1#4 p = decide (p = 0) := by revert p; decide
    have s1 : oneKey.ports[p].suppressed (.key k) = false := by unfold ConsolePort.suppressed; rw [h1]; rfl
    have s2 : oneKey.ports[p].holding (.key k) = (decide (p = 0) && decide (k = 30)) := by
      unfold ConsolePort.holding; rw [h2]; by_cases hp : p = 0 <;> simp [hp]
    have s3 : ∀ t : Target, oneKey.keyStates[t].holds p (.key k) = (decide (t = 0) && (decide (p = 0) && decide (k = 30))) := by
      intro t
      unfold KeyState.holds; rw [h3]
      by_cases ht : t = 0 <;> simp [ht, h4, eq_comm, Bool.and_comm]
    unfold State.accounts
    rw [s1, s2]
    simp only [s3]
    cases decide (p = 0) && decide (k = 30) <;> decide
  | mod m => revert p m; decide
  | button b => revert p b; decide

theorem witness_EveryStepKeepsTheAccountExact_step : answers .mergeTakeEntry oneKey = true := by decide

theorem witness_EveryStepKeepsThePointerOnAScreenOfTheFocus :
    let s := { windowed with
      edit := windowed.active
      pending := [.mergeTakeEntry]
      ports := upd ready.ports 1 fun p => { p with fifo := [.motion 500 300 0 0 false] } }
    s.LayoutSound ∧ s.ShownSound ∧ s.PointerOnScreen ∧ s.FocusHoldsPoint ∧ answers .mergeTakeEntry s = true := by
  decide

theorem witness_EveryStepKeepsPermitsAndLockedPolicy :
    let args : List Byte := [4, 0, 7, 128, 4, 56, 0, 1, 1, 0]
    let s := { asked 1 args with lockStrap := true, pending := [.tableWrite] }
    s.SomePermit ∧ s.lockStrap = true ∧ (∀ cfgt lock rest, s.pending ≠ .powerOn cfgt lock :: rest) ∧
      answers .tableWrite s = true := by
  refine ⟨by decide, rfl, ?_, by decide⟩
  intro _ _ _ h
  cases h

end Sys2Proof.Machine.Tests
end

section
/-! SUPPORT. The desk plane: what the twelve checks say of a layout, where a point lies, and who holds it (R8, R18, R50). -/

namespace Sys2Proof.Machine

theorem find?_finRange_eq_some {n : Nat} {c : Fin n → Bool} {i : Fin n} (hi : c i = true) (hlt : ∀ j < i, c j = false) :
    (List.finRange n).find? c = some i := by
  rw [List.find?_eq_some_iff_getElem]
  refine ⟨hi, i.val, by simp, by simp, fun j hj => ?_⟩
  rw [List.getElem_finRange, hlt _ (by simpa [Fin.lt_def] using hj)]
  rfl

/-! ## What the twelve checks say of a layout that passes them -/

theorem Layout.failure_eq_none {L : Layout} (h : L.valid = true) (c : Check) : L.failure c = none := by
  have hc : c ∈ checks := by cases c <;> decide
  simpa using List.findSome?_eq_none_iff.1 (Option.isNone_iff_eq_none.1 h) c hc

theorem Layout.mem_places {L : Layout} {p : Place} : p ∈ L.places ↔
    L.tiers[p.tier].used = true ∧ (L.slot p.tier p.slot).used = true ∧ (L.slot p.tier p.slot).display = some p.display := by
  obtain ⟨i, s, d⟩ := p
  simp [Layout.places, Layout.usedSlots, slotOrder, Option.map_eq_some_iff, and_assoc]

/-- Used entries whose edges rise from one to the next: everything before a used entry is used, and ends where that entry begins or
before it. Tiers and slots are both of this kind (R17). -/
theorem edges_rise {n : Nat} (used : Fin n → Bool) (edge : Fin n → Nat)
    (ok : ∀ (k : Nat) (hk : k + 1 < n), used ⟨k + 1, hk⟩ = true →
      used ⟨k, by omega⟩ = true ∧ edge ⟨k, by omega⟩ < edge ⟨k + 1, hk⟩)
    (k : Nat) : ∀ hk : k + 1 < n, used ⟨k + 1, hk⟩ = true →
      ∀ j : Fin n, j.val ≤ k → used j = true ∧ edge j ≤ edge ⟨k, by omega⟩ := by
  induction k with
  | zero =>
    rintro hk hu ⟨j, hjn⟩ hj
    obtain rfl : j = 0 := Nat.le_zero.1 hj
    exact ⟨(ok 0 hk hu).1, le_rfl⟩
  | succ k ih =>
    rintro hk hu ⟨j, hjn⟩ hj
    have hlast := (ok (k + 1) hk hu).1
    rcases Nat.le_succ_iff.1 hj with hjk | rfl
    · obtain ⟨hj1, hj2⟩ := ih (by omega) hlast ⟨j, hjn⟩ hjk
      exact ⟨hj1, hj2.trans (ok k (by omega) hlast).2.le⟩
    · exact ⟨hlast, le_rfl⟩

/-- Every tier before a used one is used, and ends at or above its top (TIER_ORDER, R17). -/
theorem Layout.tiers_rise {L : Layout} (h : L.valid = true) {i : Tier} (hi : L.tiers[i].used = true) {j : Tier} (hj : j < i) :
    L.tiers[j].used = true ∧ L.tiers[j].endY ≤ L.top i := by
  have hok : ∀ k : Tier, L.tierOrderFails k = false := by simpa [Layout.failure] using L.failure_eq_none h .tierOrder
  obtain ⟨i, hi3⟩ := i
  cases i with
  | zero => simp at hj
  | succ i =>
    refine edges_rise (fun k => L.tiers[k].used) (fun k => L.tiers[k].endY) (fun k hk hu => ?_) i hi3 hi j (Nat.lt_succ_iff.1 hj)
    simpa [Layout.tierOrderFails, show L.tiers[k + 1].used = true from hu] using hok ⟨k + 1, hk⟩

/-- In a used tier, every slot before a used one is used, and ends at or before its left edge (SLOT_ORDER, R17). -/
theorem Layout.slots_rise {L : Layout} (h : L.valid = true) {i : Tier} (hi : L.tiers[i].used = true) {s : Slot}
    (hs : (L.slot i s).used = true) {r : Slot} (hr : r < s) : (L.slot i r).used = true ∧ (L.slot i r).endX ≤ L.left i s := by
  have hok : ∀ k : Slot, L.slotOrderFails i k = false := by
    have := L.failure_eq_none h .slotOrder
    simp only [Layout.failure, Option.map_eq_none_iff, List.find?_eq_none] at this
    exact fun k => by simpa [show L.tiers[i.val].used = true from hi] using this (i, k) (by simp [slotOrder])
  obtain ⟨s, hs6⟩ := s
  cases s with
  | zero => simp at hr
  | succ s =>
    refine edges_rise (fun k => (L.slot i k).used) (fun k => (L.slot i k).endX) (fun k hk hu => ?_) s hs6 hs r (Nat.lt_succ_iff.1 hr)
    simpa [Layout.slotOrderFails, Layout.slot, show L.tiers[i.val].slots[k + 1].used = true from hu] using hok ⟨k + 1, hk⟩

/-- A placed display's slot ends its width right of its left edge (SLOT_WIDTH, R17). -/
theorem Layout.slot_width {L : Layout} (h : L.valid = true) {p : Place} (hp : p ∈ L.places) :
    (L.slot p.tier p.slot).endX = L.left p.tier p.slot + L.displays[p.display].width := by
  have := L.failure_eq_none h .slotWidth
  simp only [Layout.failure, Option.map_eq_none_iff, List.find?_eq_none, Layout.slotWidthFails] at this
  have := this p hp
  simp at this
  simp
  omega

/-- A placed display is no higher than its tier (SCREEN_HEIGHT, R17). -/
theorem Layout.screen_height {L : Layout} (h : L.valid = true) {p : Place} (hp : p ∈ L.places) :
    L.top p.tier + L.displays[p.display].height ≤ L.tiers[p.tier].endY := by
  have := L.failure_eq_none h .screenHeight
  simp only [Layout.failure, Option.map_eq_none_iff, List.find?_eq_none, Layout.screenHeightFails] at this
  have := this p hp
  simp at this
  simp
  omega

/-- A placed display has an owner (BASE_UNOWNED, R18). -/
theorem Layout.owned {L : Layout} (h : L.valid = true) {p : Place} (hp : p ∈ L.places) : ∃ o, L.displayOwner p.display = some o := by
  have := L.failure_eq_none h .baseUnowned
  simp only [Layout.failure, Option.map_eq_none_iff, List.find?_eq_none, Layout.baseUnowned] at this
  simpa [Option.ne_none_iff_exists'] using this p hp

/-- There is a first screen (NO_SCREEN, R18). -/
theorem Layout.firstScreen_isSome {L : Layout} (h : L.valid = true) : ∃ p ∈ L.places, L.firstScreen = some p := by
  have := L.failure_eq_none h .noScreen
  simp only [Layout.failure] at this
  unfold Layout.firstScreen
  cases hl : L.places with
  | nil => simp [hl] at this
  | cons p ps => exact ⟨p, by simp, rfl⟩

/-! ## Point lookup (R5) in a layout that passes the checks -/

theorem Rect.contains_iff {r : Rect} {x y : Nat} : r.contains x y = true ↔ r.x ≤ x ∧ x < r.x + r.w ∧ r.y ≤ y ∧ y < r.y + r.h := by
  simp [Rect.contains, and_assoc]

/-- A screen holds the points that look up to it (R4, R5). -/
theorem Layout.lookup_of_contains {L : Layout} (h : L.valid = true) {p : Place} (hp : p ∈ L.places) {x y : Nat}
    (hc : (L.screen p).contains x y = true) : L.lookup x y = some p := by
  obtain ⟨hx, hx', hy, hy'⟩ := Rect.contains_iff.1 hc
  obtain ⟨htier, hslot, hdisp⟩ := Layout.mem_places.1 hp
  have hw := L.slot_width h hp
  have hh := L.screen_height h hp
  simp only [Layout.screen] at hx hx' hy hy'
  have ht : L.tierAt y = some p.tier := by
    refine find?_finRange_eq_some (by simp only [htier, Bool.true_and, decide_eq_true_eq]; omega) fun j hj => ?_
    obtain ⟨-, hend⟩ := L.tiers_rise h htier hj
    simp only [Bool.and_eq_false_iff, decide_eq_false_iff_not]
    omega
  have hs : L.slotAt p.tier x = some p.slot := by
    refine find?_finRange_eq_some (by simp only [hslot, Bool.true_and, decide_eq_true_eq]; omega) fun j hj => ?_
    obtain ⟨-, hend⟩ := L.slots_rise h htier hslot hj
    simp only [Bool.and_eq_false_iff, decide_eq_false_iff_not]
    omega
  unfold Layout.lookup
  simp only [ht, hs, hdisp]
  rw [if_neg (by omega)]

/-- What a point looks up to is a placed display. -/
theorem Layout.lookup_mem {L : Layout} {p : Place} {x y : Nat} (h : L.lookup x y = some p) : p ∈ L.places := by
  unfold Layout.lookup at h
  split at h
  · cases h
  rename_i i hi
  split at h
  · cases h
  rename_i s hs
  split at h
  · cases h
  rename_i d hd
  split at h
  · cases h
  obtain rfl := Option.some.inj h
  have ht := List.find?_some hi
  have hu := List.find?_some hs
  simp only [Bool.and_eq_true] at ht hu
  exact Layout.mem_places.2 ⟨ht.1, hu.1, hd⟩

theorem Layout.placeOf_spec {L : Layout} {d : Display} {p : Place} (h : L.placeOf d = some p) : p ∈ L.places ∧ p.display = d :=
  ⟨List.mem_of_find?_eq_some h, by simpa using List.find?_some h⟩

/-! ## Rectangles -/

theorem Rect.contains_centre {r : Rect} (hw : 0 < r.w) (hh : 0 < r.h) : r.contains r.centre.1 r.centre.2 = true := by
  rw [Rect.contains_iff]
  simp only [Rect.centre]
  omega

theorem clampAxis_bounds {lo hi : Nat} (h : lo < hi) (q : Int) : lo ≤ clampAxis lo hi q / 16 ∧ clampAxis lo hi q / 16 < hi := by
  unfold clampAxis
  split
  · omega
  · split <;> omega

/-- A candidate clamped to a rectangle lies in it (R88). -/
theorem Rect.contains_clampPoint {r : Rect} (hw : 0 < r.w) (hh : 0 < r.h) (q : Int × Int) :
    r.contains ((r.clampPoint q).1 / 16) ((r.clampPoint q).2 / 16) = true := by
  have hx := clampAxis_bounds (show r.x < r.x + r.w by omega) q.1
  have hy := clampAxis_bounds (show r.y < r.y + r.h by omega) q.2
  exact Rect.contains_iff.2 ⟨hx.1, hx.2, hy.1, hy.2⟩

theorem Layout.screen_pos {L : Layout} (h : L.InRange) (p : Place) : 0 < (L.screen p).w ∧ 0 < (L.screen p).h := by
  obtain ⟨-, hd, -⟩ := h
  obtain ⟨hw, -, hh, -⟩ := hd p.display
  exact ⟨by simp only [Layout.screen]; omega, by simp only [Layout.screen]; omega⟩

/-! ## Windows, regions and who holds a point (R7, R8, R50, R57) -/

/-- A window's rectangle lies within the screen of its display (R7). -/
theorem State.lookup_of_windowOnDesk {s : State} (hv : s.active.valid = true) {w : Window} {r : Rect}
    (hr : s.windowOnDesk w = some r) {x y : Nat} (hc : r.contains x y = true) :
    ∃ p, s.active.lookup x y = some p ∧ p.display = s.active.windows[w].display := by
  obtain ⟨p, hp, rfl⟩ := Option.map_eq_some_iff.1 hr
  obtain ⟨hmem, hdisp⟩ := Layout.placeOf_spec hp
  refine ⟨p, Layout.lookup_of_contains hv hmem ?_, hdisp⟩
  rw [Rect.contains_iff] at hc ⊢
  simp only [Layout.screen, State.windowRect, hdisp] at hc ⊢
  omega

theorem State.windowDrawn_pos {s : State} {w : Window} (h : s.windowDrawn w = true) {r : Rect} (hr : s.windowOnDesk w = some r) :
    0 < r.w ∧ 0 < r.h := by
  obtain ⟨p, -, rfl⟩ := Option.map_eq_some_iff.1 hr
  simp only [State.windowDrawn, Rect.isEmpty, Bool.and_eq_true, Bool.not_eq_true', Bool.or_eq_false_iff, decide_eq_false_iff_not] at h
  simp only
  omega

/-- A point in a drawn interactive window is held by the window's source owner (R50). -/
theorem State.holdsPoint_of_window {s : State} {t : Target} {x y : Nat} {w : Window} (h : s.windowOfAt t x y w = true) :
    s.holdsPoint t x y = true := by
  simp only [State.holdsPoint, Bool.or_eq_true, List.any_eq_true, List.mem_finRange, true_and]
  exact .inr ⟨w, h⟩

/-- A point of a screen is held by the screen's owner (R50). -/
theorem State.holdsPoint_of_screen {s : State} {t : Target} {x y : Nat} {p : Place} (hl : s.active.lookup x y = some p)
    (ho : s.active.displayOwner p.display = some t) : s.holdsPoint t x y = true := by
  simp [State.holdsPoint, State.ownsScreenAt, hl, ho]

/-- The region under a point of a screen has a target, and that target holds the point (R8, R50). -/
theorem State.regionTarget_holds {s : State} (hv : s.active.valid = true) {x y : Nat} (hp : (s.active.lookup x y).isSome = true) :
    ∃ region r, s.regionAt x y = some region ∧ s.regionTarget region = some r ∧ s.holdsPoint r x y = true := by
  obtain ⟨p, hl⟩ := Option.isSome_iff_exists.1 hp
  obtain ⟨o, ho⟩ := Layout.owned hv (Layout.lookup_mem hl)
  have hscreen := State.holdsPoint_of_screen hl ho
  unfold State.regionAt
  rw [hl, Option.map_some]
  cases hw : topWindow fun w => s.active.windows[w].display = p.display && s.windowAt x y w with
  | none => exact ⟨_, o, rfl, ho, hscreen⟩
  | some w =>
    have hfound := List.find?_some hw
    simp only [Bool.and_eq_true, decide_eq_true_eq] at hfound
    obtain ⟨hdisp, hat⟩ := hfound
    cases hlive : s.liveWindowOwner w with
    | none => exact ⟨_, o, rfl, by simp only [State.regionTarget, hlive, hdisp, ho], hscreen⟩
    | some t =>
      refine ⟨_, t, rfl, by simp only [State.regionTarget, hlive], State.holdsPoint_of_window (w := w) ?_⟩
      unfold State.liveWindowOwner at hlive
      split at hlive
      · rename_i hint
        simp only [State.windowOfAt, hint, hat, (Option.filter_eq_some_iff.1 hlive).1, decide_true, Bool.and_self]
      · cases hlive

/-- The warp point of a first region lies on a screen, and the target holds it (R57). -/
theorem State.firstRegion_holds {s : State} (hv : s.active.valid = true) (hr : s.active.InRange) {t : Target} {q : Nat × Nat}
    (h : s.firstRegion t = some q) : (s.active.lookup q.1 q.2).isSome = true ∧ s.holdsPoint t q.1 q.2 = true := by
  unfold State.firstRegion at h
  split at h
  · rename_i c hc
    obtain rfl := Option.some.inj h
    obtain ⟨d, -, hd⟩ := List.exists_of_findSome?_eq_some hc
    split at hd
    · rename_i ho
      obtain ⟨p, hp, rfl⟩ := Option.map_eq_some_iff.1 hd
      obtain ⟨hmem, rfl⟩ := Layout.placeOf_spec hp
      obtain ⟨hw, hh⟩ := Layout.screen_pos hr p
      have hl := Layout.lookup_of_contains hv hmem (Rect.contains_centre hw hh)
      exact ⟨by rw [hl]; rfl, State.holdsPoint_of_screen hl ho⟩
    · cases hd
  · obtain ⟨w, -, hw⟩ := List.exists_of_findSome?_eq_some h
    split at hw
    · rename_i hcond
      simp only [Bool.and_eq_true] at hcond
      obtain ⟨⟨hint, hown⟩, hdrawn⟩ := hcond
      obtain ⟨r, hdesk, rfl⟩ := Option.map_eq_some_iff.1 hw
      obtain ⟨hpos, hpos'⟩ := State.windowDrawn_pos hdrawn hdesk
      have hc := Rect.contains_centre hpos hpos'
      obtain ⟨p, hl, -⟩ := State.lookup_of_windowOnDesk hv hdesk hc
      exact ⟨by rw [hl]; rfl,
        State.holdsPoint_of_window (w := w) (by simp only [State.windowOfAt, State.windowAt, hint, hown, hdrawn, hdesk, hc, Bool.and_self])⟩
    · cases hw

end Sys2Proof.Machine
end

section
/-! SUPPORT. The part of the state that the layout, table and pointer invariants read, and the shared operations that leave it alone. -/

namespace Sys2Proof.Machine

/-! ## The scene: what the invariants of layout store, tables and pointer read of a state -/

/-- What the region under a point and its holder depend on (R8, R50): the active layout, the shown set, the measured geometries. -/
structure Plane where
  layout   : Layout
  shown    : Window → Bool
  measured : Head → Option Geometry

/-- The rest of the layout store, and the tables whose fields have ranges (R10, R12). -/
structure Store where
  edit      : Layout
  holdOwner : Option Target
  budgets   : Vector Nat 6
  policies  : Vector TargetPolicy 8
  consoles  : Vector ConsoleEntry 4
  hotkeys   : Vector HotkeyEntry 24
  desk      : DeskEntry

/-- Plane and store with the pointer, the focus target and the detached flag (R49, R79). -/
structure Scene where
  plane    : Plane
  store    : Store
  px       : Nat
  py       : Nat
  target   : Target
  detached : Bool

def State.scene (s : State) : Scene where
  plane := ⟨s.active, fun w => s.windows[w].shown, fun h => s.heads[h].measured⟩
  store := ⟨s.edit, s.holdOwner, s.budgets, s.policies, s.consoles, s.hotkeys, s.desk⟩
  px := s.glide.px
  py := s.glide.py
  target := s.focus.target
  detached := s.focus.detached

/-- Who holds a point depends on the plane only. -/
theorem State.holdsPoint_congr {s t : State} (h : t.scene.plane = s.scene.plane) : t.holdsPoint = s.holdsPoint := by
  simp only [State.scene, Plane.mk.injEq, funext_iff] at h
  obtain ⟨ha, hs, hm⟩ := h
  have hrect : t.windowRect = s.windowRect := by
    funext w
    simp only [State.windowRect, State.sourceGeometry, ha, hm]
  have hat : t.windowAt = s.windowAt := by
    funext x y w
    simp only [State.windowAt, State.windowDrawn, State.windowOnDesk, ha, hs, hrect]
  funext u x y
  simp only [State.holdsPoint, State.ownsScreenAt, State.windowOfAt, ha, hat]

/-- The shown set, the pointer and the focus target are sound together (R50, R79, R130). -/
structure State.PointerSound (s : State) : Prop where
  shown  : s.ShownSound
  screen : s.PointerOnScreen
  holds  : s.FocusHoldsPoint

/-- t is as sound as s is, in its layout store, in its tables and in its pointer. -/
structure State.KeepsSound (s t : State) : Prop where
  layout  : s.LayoutSound → t.LayoutSound
  tables  : s.TablesInRange → t.TablesInRange
  pointer : s.LayoutSound → s.PointerSound → t.PointerSound

theorem State.KeepsSound.trans {a b c : State} (h : a.KeepsSound b) (k : b.KeepsSound c) : a.KeepsSound c :=
  ⟨k.layout ∘ h.layout, k.tables ∘ h.tables, fun hl hp => k.pointer (h.layout hl) (h.pointer hl hp)⟩

theorem State.PointerSound.of_scene {s t : State} (h : t.scene.plane = s.scene.plane) (hshown : s.ShownSound)
    (hscreen : (s.active.lookup (t.scene.px / 16) (t.scene.py / 16)).isSome = true)
    (hholds : t.scene.detached = true ∨ s.holdsPoint t.scene.target (t.scene.px / 16) (t.scene.py / 16) = true) : t.PointerSound := by
  rw [← State.holdsPoint_congr h] at hholds
  simp only [State.scene, Plane.mk.injEq, funext_iff] at h
  obtain ⟨ha, hw, -⟩ := h
  refine ⟨fun w => ?_, ?_, hholds⟩
  · rw [hw, ha]; exact hshown w
  · rw [State.PointerOnScreen, ha]; exact hscreen

/-- A state with the same active layout and store is as sound if its pointer is. -/
theorem State.KeepsSound.of_pointer {s t : State} (h : t.scene.plane.layout = s.scene.plane.layout)
    (hs : t.scene.store = s.scene.store) (hp : s.LayoutSound → s.PointerSound → t.PointerSound) : s.KeepsSound t := by
  have ha : t.active = s.active := h
  simp only [State.scene, Store.mk.injEq] at hs
  obtain ⟨he, ho, hb, hpol, hcon, hhot, hdesk⟩ := hs
  refine ⟨fun h => ?_, fun h => ?_, hp⟩
  · rw [State.LayoutSound, ha, he, ho]; exact h
  · rw [State.TablesInRange, hb, hpol, hcon, hhot, hdesk]; exact h

theorem State.KeepsSound.of_scene {s t : State} (h : t.scene = s.scene) : s.KeepsSound t :=
  .of_pointer (by rw [h]) (by rw [h]) fun _ hp => .of_scene (by rw [h]) hp.shown (by rw [h]; exact hp.screen) (by rw [h]; exact hp.holds)

theorem State.KeepsSound.refl (s : State) : s.KeepsSound s := .of_scene rfl

theorem foldl_scene {α : Type} {f : State → α → State} (h : ∀ (s : State) (a : α), (f s a).scene = s.scene) (l : List α) (s : State) :
    (l.foldl f s).scene = s.scene := by
  induction l generalizing s with
  | nil => rfl
  | cons a l ih => rw [List.foldl_cons, ih, h]

theorem foldl_keepsSound {α : Type} {f : State → α → State} (h : ∀ (s : State) (a : α), s.KeepsSound (f s a)) (l : List α) (s : State) :
    s.KeepsSound (l.foldl f s) := by
  induction l generalizing s with
  | nil => exact .refl s
  | cons a l ih => exact (h s a).trans (ih _)

/-! ## Operations that leave the scene, or set the pointer or the focus target in it -/

@[simp] theorem State.modPort_scene (p : Port) (f : ConsolePort → ConsolePort) (s : State) : (s.modPort p f).scene = s.scene := rfl
@[simp] theorem State.modTarget_scene (t : Target) (f : TargetPort → TargetPort) (s : State) : (s.modTarget t f).scene = s.scene := rfl
@[simp] theorem State.modKeys_scene (t : Target) (f : KeyState → KeyState) (s : State) : (s.modKeys t f).scene = s.scene := rfl
@[simp] theorem State.modDisplay_scene (d : Display) (f : DisplayState → DisplayState) (s : State) : (s.modDisplay d f).scene = s.scene := rfl
@[simp] theorem State.send_scene (f : OutFrame) (s : State) : (s.send f).scene = s.scene := rfl
@[simp] theorem State.sendLeds_scene (c : Port → Bool) (s : State) : (s.sendLeds c).scene = s.scene := rfl
@[simp] theorem State.raise_scene (k : NoticeKind) (i : Fin 16) (s : State) : (s.raise k i).scene = s.scene := rfl
@[simp] theorem State.setDetector_scene (d : Detector) (s : State) : (s.setDetector d).scene = s.scene := rfl
@[simp] theorem State.clearInput_scene (t : Target) (s : State) : (s.clearInput t).scene = s.scene := rfl
@[simp] theorem State.portEnd_scene (t : Target) (s : State) : (s.portEnd t).scene = s.scene := rfl
@[simp] theorem State.setLast_scene (t : Target) (q : Nat × Nat) (s : State) : (s.setLast t q).scene = s.scene := rfl
@[simp] theorem State.requestSync_scene (t : Target) (s : State) : (s.requestSync t).scene = s.scene := rfl
@[simp] theorem State.recordRegion_scene (s : State) : s.recordRegion.scene = s.scene := rfl
@[simp] theorem State.activity_scene (s : State) : s.activity.scene = s.scene := rfl
@[simp] theorem State.dropReply_scene (t : Target) (s : State) : (s.dropReply t).scene = s.scene := rfl
@[simp] theorem State.clearPressure_scene (s : State) : s.clearPressure.scene = s.scene := rfl
@[simp] theorem State.clampDetached_scene (s : State) : s.clampDetached.scene = s.scene := rfl
@[simp] theorem State.warp_scene (q : Nat × Nat) (s : State) :
    (s.warp q).scene = { s.scene with px := q.1 * 16, py := q.2 * 16, detached := false } := rfl
@[simp] theorem State.detach_scene (t : Target) (s : State) : (s.detach t).scene = { s.scene with detached := true } := rfl
@[simp] theorem State.place_scene (q : Nat × Nat) (pr : Option Pressure) (s : State) :
    (s.place q pr).scene = { s.scene with px := q.1, py := q.2 } := rfl
@[simp] theorem State.setPointer_scene (q : Nat × Nat) (s : State) :
    (s.setPointer q).scene = { s.scene with px := q.1, py := q.2 } := rfl

@[simp] theorem State.sendTo_scene (t : Target) (f : OutFrame) (s : State) : (s.sendTo t f).scene = s.scene := by
  unfold State.sendTo; split <;> rfl

@[simp] theorem State.offerReport_scene (t : Target) (r : Report) (s : State) : (s.offerReport t r).scene = s.scene := by
  unfold State.offerReport
  split
  · rw [State.portEnd_scene]; split <;> rfl
  all_goals rfl

@[simp] theorem State.announceView_scene (v : ModSet × List Key) (t : Target) (s : State) : (s.announceView v t).scene = s.scene := by
  unfold State.announceView; split <;> simp

@[simp] theorem State.buttonReport_scene (t : Target) (s : State) : (s.buttonReport t).scene = s.scene := by
  simp [State.buttonReport]

@[simp] theorem State.wakeRequest_scene (t : Target) (s : State) : (s.wakeRequest t).scene = s.scene := by
  unfold State.wakeRequest; split <;> simp

@[simp] theorem State.pointerReport_scene (t : Target) (q : Nat × Nat) (w : Int) (c e : Bool) (s : State) :
    (s.pointerReport t q w c e).scene = s.scene := by
  unfold State.pointerReport
  dsimp only
  repeat' split
  all_goals simp

@[simp] theorem State.leave_scene (a : Target) (s : State) : (s.leave a).scene = s.scene := by
  unfold State.leave; dsimp only; split <;> simp

@[simp] theorem State.carryOver_scene (s before : State) (a b : Target) (m : ModSet) : (s.carryOver before a b m).scene = s.scene := by
  unfold State.carryOver; simp only [State.announceView_scene]; rfl

/-- A switch makes its target the focus target, and leaves pointer and detached flag (R53). -/
@[simp] theorem State.arrive_scene (a b : Target) (c : Cause) (r : Region) (s : State) :
    (s.arrive a b c r).scene = { s.scene with target := b } := by
  unfold State.arrive; dsimp only; split <;> simp [State.ledsToFollowers] <;> rfl

@[simp] theorem State.switchTo_scene (b : Target) (c : Cause) (m : ModSet) (r : Region) (s : State) :
    (s.switchTo b c m r).scene = { s.scene with target := b } := by
  unfold State.switchTo
  dsimp only
  split
  · rename_i h; subst h; rfl
  · simp

@[simp] theorem State.entry_scene (b : Target) (s : State) : (s.entry b).scene = s.scene := by
  unfold State.entry; split <;> simp

@[simp] theorem State.switch_scene (b : Target) (c : Cause) (m : ModSet) (r : Region) (s : State) :
    (s.switch b c m r).scene = { s.scene with target := b } := by
  unfold State.switch
  split
  · rename_i h; subst h; rfl
  · simp

@[simp] theorem State.awayTest_scene (sx sy : Int) (s : State) : (s.awayTest sx sy).scene = s.scene := by
  unfold State.awayTest; repeat' split
  all_goals rfl

@[simp] theorem State.bookPress_scene (p : Port) (t : Target) (i : Item) (s : State) : (s.bookPress p t i).scene = s.scene := by
  have ha : (s.acceptPress t).1.scene = s.scene := by
    unfold State.acceptPress; repeat' split
    all_goals simp
  unfold State.bookPress
  dsimp only
  repeat' split
  all_goals simp [ha]

@[simp] theorem State.keyPress_scene (p : Port) (t : Target) (i : KeyItem) (s : State) : (s.keyPress p t i).scene = s.scene := by
  simp [State.keyPress]

@[simp] theorem State.keyRelease_scene (p : Port) (i : KeyItem) (s : State) : (s.keyRelease p i).scene = s.scene := by
  unfold State.keyRelease; repeat' split
  all_goals simp

@[simp] theorem State.buttonRelease_scene (p : Port) (b : Button) (s : State) : (s.buttonRelease p b).scene = s.scene := by
  unfold State.buttonRelease; repeat' split
  all_goals simp

@[simp] theorem State.buttonPress_scene (p : Port) (d : Option Target) (b : Button) (s : State) :
    (s.buttonPress p d b).scene = s.scene := by
  unfold State.buttonPress; split <;> simp

@[simp] theorem State.accountButtons_scene (e : PointerEvent) (d : Option Target) (s : State) :
    (s.accountButtons e d).scene = s.scene := by
  unfold State.accountButtons
  rw [foldl_scene fun _ _ => State.buttonPress_scene .., foldl_scene fun _ _ => State.buttonRelease_scene .., State.modPort_scene]

@[simp] theorem State.buttonReports_scene (before : State) (r : Target) (s : State) :
    (State.buttonReports before r s).scene = s.scene :=
  foldl_scene (fun _ _ => State.buttonReport_scene ..) _ s

@[simp] theorem State.buttonsAndReport_scene (e : PointerEvent) (d : Option Target) (r : Target) (q : Option (Nat × Nat))
    (entry : Bool) (s : State) : (s.buttonsAndReport e d r q entry).scene = s.scene := by
  unfold State.buttonsAndReport; split <;> simp

@[simp] theorem State.reply_scene (t : Target) (f : ControlFrame) (a : Answer) (s : State) : (s.reply t f a).scene = s.scene := by
  simp [State.reply]

@[simp] theorem State.checkMismatch_scene (c : Display → Bool) (s : State) : (s.checkMismatch c).scene = s.scene :=
  foldl_scene (fun _ _ => State.raise_scene ..) _ s

/-! ## The re-evaluation and the directed change keep the pointer sound -/

/-- With the pointer on a screen, the region recorded at it has a target, which holds the pointer's point (R50, R60). -/
theorem State.recordedTarget_holds {s : State} (hv : s.active.valid = true) (hp : s.PointerOnScreen) {o : Option Target}
    (ho : s.recordRegion.regionTarget s.recordRegion.focus.region = o) :
    ∃ r, o = some r ∧ s.holdsPoint r s.pointer.1 s.pointer.2 = true := by
  obtain ⟨region, r, hat, htarget, hholds⟩ := State.regionTarget_holds hv hp
  refine ⟨r, ho.symm.trans ?_, hholds⟩
  show s.regionTarget ((s.regionAt s.pointer.1 s.pointer.2).getD s.focus.region) = some r
  rw [hat]
  exact htarget

/-- A re-evaluation moves the focus target at most; with the pointer on a screen, the target then holds the pointer's point, or focus is
detached (R50, R60). -/
theorem State.reevaluate_target (c : Cause) (m : ModSet) (s : State) : ∃ r, (s.reevaluate c m).scene = { s.scene with target := r } ∧
    (s.active.valid = true → s.PointerOnScreen → s.focus.detached = true ∨ s.holdsPoint r s.pointer.1 s.pointer.2 = true) := by
  unfold State.reevaluate
  dsimp only
  split
  · rename_i hnone
    refine ⟨s.focus.target, rfl, fun hv hp => ?_⟩
    obtain ⟨r, hr, -⟩ := State.recordedTarget_holds hv hp hnone
    cases hr
  rename_i r hsome
  have hr : s.active.valid = true → s.PointerOnScreen → s.holdsPoint r s.pointer.1 s.pointer.2 = true := by
    intro hv hp
    obtain ⟨r', hr', hholds⟩ := State.recordedTarget_holds hv hp hsome
    exact Option.some.inj hr' ▸ hholds
  split
  · rename_i hcond
    refine ⟨s.focus.target, rfl, fun hv hp => ?_⟩
    rcases Bool.or_eq_true_iff.1 hcond with hd | hf
    · exact .inl hd
    · exact .inr (of_decide_eq_true hf ▸ hr hv hp)
  · split
    · rename_i hcond
      exact ⟨s.focus.target, rfl, fun _ _ => .inr (Bool.and_eq_true_iff.1 hcond).1⟩
    · exact ⟨r, by rw [State.switch_scene, State.recordRegion_scene], fun hv hp => .inr (hr hv hp)⟩

/-- A re-evaluation makes the pointer sound, whoever had focus before. -/
theorem State.reevaluate_pointerSound (c : Cause) (m : ModSet) {s : State} (hv : s.active.valid = true) (hshown : s.ShownSound)
    (hp : s.PointerOnScreen) : (s.reevaluate c m).PointerSound := by
  obtain ⟨r, hscene, hholds⟩ := s.reevaluate_target c m
  exact .of_scene (by rw [hscene]) hshown (by rw [hscene]; exact hp) (by rw [hscene]; exact hholds hv hp)

theorem State.reevaluate_keepsSound (c : Cause) (m : ModSet) (s : State) : s.KeepsSound (s.reevaluate c m) := by
  obtain ⟨r, hscene, -⟩ := s.reevaluate_target c m
  exact .of_pointer (by rw [hscene]) (by rw [hscene]) fun hl hp => State.reevaluate_pointerSound c m hl.1 hp.shown hp.screen

/-- A directed change toward a target with a first region makes the pointer sound: it warps to a point the target holds (R57, R58). -/
theorem State.directed_pointerSound {t : Target} (c : Cause) (m : ModSet) {s : State} (hv : s.active.valid = true)
    (hr : s.active.InRange) (hshown : s.ShownSound) (hp : s.PointerOnScreen)
    (ht : t = s.focus.target → s.firstRegion t ≠ none) : (s.directed t c m).PointerSound := by
  unfold State.directed
  split
  · rename_i q hq
    obtain ⟨hscreen, hholds⟩ := State.firstRegion_holds hv hr hq
    exact .of_scene (s := s) (by simp) hshown (by simpa using hscreen) (by simpa using hholds)
  · rename_i hnone
    rw [if_neg fun he => ht he hnone]
    have hscreen : (s.active.lookup (s.scene.px / 16) (s.scene.py / 16)).isSome = true := hp
    exact .of_scene (s := s) (by simp) hshown (by simpa using hscreen) (by simp)

theorem State.directed_scene (t : Target) (c : Cause) (m : ModSet) (s : State) :
    (s.directed t c m).scene.plane = s.scene.plane ∧ (s.directed t c m).scene.store = s.scene.store := by
  unfold State.directed
  split
  · simp
  · split <;> simp

theorem State.directed_keepsSound (t : Target) (c : Cause) (m : ModSet) (s : State) : s.KeepsSound (s.directed t c m) := by
  obtain ⟨hplane, hstore⟩ := s.directed_scene t c m
  refine .of_pointer (by rw [hplane]) hstore fun hl hp => ?_
  by_cases h : t = s.focus.target ∧ s.firstRegion t = none
  · rw [show s.directed t c m = s by simp only [State.directed, h.2, if_pos h.1]]
    exact hp
  · exact State.directed_pointerSound c m hl.1 hl.2.1 hp.shown hp.screen fun he hn => h ⟨he, hn⟩

/-! ## The glide unit keeps the pointer on a screen -/

theorem toNat_div_sixteen (q : Int) : q.toNat / 16 = (q / 16).toNat := by omega

theorem State.candidatePlace_isSome {s : State} {q : Int × Int} (h : (s.candidatePlace q).isSome = true) :
    (s.active.lookup (q.1.toNat / 16) (q.2.toNat / 16)).isSome = true := by
  unfold State.candidatePlace at h
  dsimp only at h
  split at h
  · rwa [toNat_div_sixteen, toNat_div_sixteen]
  · cases h

/-- A candidate clamped to a screen is on it (R88). -/
theorem State.screenClamp_isSome {s : State} (hv : s.active.valid = true) (hr : s.active.InRange) {p : Place}
    (hp : p ∈ s.active.places) (q : Int × Int) :
    (s.active.lookup (((s.active.screen p).clampPoint q).1 / 16) (((s.active.screen p).clampPoint q).2 / 16)).isSome = true := by
  obtain ⟨hw, hh⟩ := Layout.screen_pos hr p
  rw [Layout.lookup_of_contains hv hp (Rect.contains_clampPoint hw hh q)]
  rfl

/-- A candidate clamped to the holding rectangle is on a screen (R84, R88). -/
theorem State.holdingClamp_isSome {s : State} (hv : s.active.valid = true) (hr : s.active.InRange) (f : Target) {p : Place}
    (hp : p ∈ s.active.places) (q : Int × Int) :
    (s.active.lookup (((s.holdingRect f p).clampPoint q).1 / 16) (((s.holdingRect f p).clampPoint q).2 / 16)).isSome = true := by
  unfold State.holdingRect
  split
  · exact State.screenClamp_isSome hv hr hp q
  · split
    · rename_i r hfound
      obtain ⟨w, hw, hdesk⟩ := Option.bind_eq_some_iff.1 hfound
      have hof := List.find?_some hw
      simp only [State.windowOfAt, State.windowAt, Bool.and_eq_true] at hof
      obtain ⟨hpos, hpos'⟩ := State.windowDrawn_pos hof.2.1 hdesk
      obtain ⟨p', hl, -⟩ := State.lookup_of_windowOnDesk hv hdesk (Rect.contains_clampPoint hpos hpos' q)
      rw [hl]
      rfl
    · exact State.screenClamp_isSome hv hr hp q

/-- t is s with the pointer moved at most; with p a placed display of a layout that passes its checks, to a point of a screen. -/
def State.MovesOnScreen (p : Place) (s t : State) : Prop :=
  ∃ x y, t.scene = { s.scene with px := x, py := y } ∧
    (s.active.valid = true → s.active.InRange → p ∈ s.active.places → (s.active.lookup (x / 16) (y / 16)).isSome = true)

theorem State.place_movesOnScreen {p : Place} {q : Nat × Nat} {pr : Option Pressure} {s : State}
    (h : s.active.valid = true → s.active.InRange → p ∈ s.active.places → (s.active.lookup (q.1 / 16) (q.2 / 16)).isSome = true) :
    s.MovesOnScreen p (s.place q pr) :=
  ⟨q.1, q.2, rfl, h⟩

/-- Settling from a place moves the pointer to a screen (R84 to R88): clamped to the place's screen or to the holding rectangle, or to a
candidate that lies in a screen. -/
theorem State.settleFrom_movesOnScreen (p : Place) (q : Int × Int) (s : State) : s.MovesOnScreen p (s.settleFrom p q).1 := by
  have hholding : ∀ pr, s.MovesOnScreen p (s.place ((s.holdingRect s.focus.target p).clampPoint q) pr) :=
    fun _ => State.place_movesOnScreen fun hv hr hp => State.holdingClamp_isSome hv hr _ hp q
  have hscreen : ∀ pr, s.MovesOnScreen p (s.place ((s.active.screen p).clampPoint q) pr) :=
    fun _ => State.place_movesOnScreen fun hv hr hp => State.screenClamp_isSome hv hr hp q
  have haccepted : (s.candidatePlace q).isSome = true → ∀ pr, s.MovesOnScreen p (s.place (q.1.toNat, q.2.toNat) pr) :=
    fun h _ => State.place_movesOnScreen fun _ _ _ => State.candidatePlace_isSome h
  unfold State.settleFrom
  dsimp only
  split
  · exact hholding _
  split
  · split
    · rename_i h
      exact haccepted (Bool.and_eq_true_iff.1 h).1 _
    · exact hholding _
  split
  · exact hscreen _
  rename_i hp'
  replace haccepted := haccepted (by rw [hp']; rfl)
  split
  · exact haccepted _
  split
  · exact hscreen _
  split
  · exact haccepted _
  split
  · split
    · exact haccepted _
    · exact hscreen _
  · exact hscreen _

/-- Stage 2 of a pointer event leaves the pointer on a screen (R79, R81). -/
theorem State.settle_pointer (sx sy : Int) (s : State) : ∃ x y, (s.settle sx sy).1.scene = { s.scene with px := x, py := y } ∧
    (s.active.valid = true → s.active.InRange → s.PointerOnScreen → (s.active.lookup (x / 16) (y / 16)).isSome = true) := by
  have hscene := s.awayTest_scene sx sy
  have hactive : (s.awayTest sx sy).active = s.active := congrArg (fun c => c.plane.layout) hscene
  unfold State.settle
  dsimp only
  split
  · rename_i p hl
    obtain ⟨x, y, hmoved, hsome⟩ := State.settleFrom_movesOnScreen p
      (((s.awayTest sx sy).glide.px : Int) + sx, ((s.awayTest sx sy).glide.py : Int) + sy) (s.awayTest sx sy)
    rw [hactive] at hsome hl
    exact ⟨x, y, by rw [hmoved, hscene], fun hv hr _ => hsome hv hr (Layout.lookup_mem hl)⟩
  · exact ⟨s.glide.px, s.glide.py, hscene, fun _ _ hp => hp⟩

/-- Stage 3 of a pointer event moves the focus target at most, and to one that holds the pointer's point (R50, R89, R90). -/
theorem State.followRegion_target (crossed : Bool) (s : State) : ∃ r, (s.followRegion crossed).scene = { s.scene with target := r } ∧
    (s.active.valid = true → s.PointerOnScreen → s.holdsPoint r s.pointer.1 s.pointer.2 = true) := by
  unfold State.followRegion
  dsimp only
  split
  · rename_i hnone
    refine ⟨s.focus.target, rfl, fun hv hp => ?_⟩
    obtain ⟨r, hr, -⟩ := State.recordedTarget_holds hv hp hnone
    cases hr
  rename_i r hsome
  have hr : s.active.valid = true → s.PointerOnScreen → s.holdsPoint r s.pointer.1 s.pointer.2 = true := by
    intro hv hp
    obtain ⟨r', hr', hholds⟩ := State.recordedTarget_holds hv hp hsome
    exact Option.some.inj hr' ▸ hholds
  split
  · rename_i hf
    exact ⟨s.focus.target, rfl, fun hv hp => hf ▸ hr hv hp⟩
  split
  · exact ⟨r, by rw [State.switchTo_scene, State.recordRegion_scene], hr⟩
  split
  · rename_i hcond
    exact ⟨s.focus.target, rfl, fun _ _ => (Bool.and_eq_true_iff.1 hcond).1⟩
  · exact ⟨r, by rw [State.switchTo_scene, State.recordRegion_scene], hr⟩

theorem State.completeRelease_keepsSound (e : PointerEvent) (s : State) : s.KeepsSound (s.completeRelease e) := by
  unfold State.completeRelease
  split
  · exact State.reevaluate_keepsSound ..
  · exact .refl s

/-- A pointer event of a following port keeps the pointer on a screen whose point the focus target holds (R50, R79, R81). -/
theorem State.followingMotion_keepsSound (e : PointerEvent) (s : State) : s.KeepsSound (s.followingMotion e) := by
  unfold State.followingMotion
  dsimp only
  refine .trans ?_ (State.completeRelease_keepsSound e _)
  obtain ⟨x, y, hmoved, hsome⟩ := s.settle_pointer (s.scaledStep e.port e.dx e.dy).1 (s.scaledStep e.port e.dx e.dy).2
  generalize s.settle (s.scaledStep e.port e.dx e.dy).1 (s.scaledStep e.port e.dx e.dy).2 = settled at hmoved ⊢
  obtain ⟨r, htarget, hholds⟩ := settled.1.followRegion_target settled.2
  have hactive : settled.1.active = s.active := congrArg (fun c => c.plane.layout) hmoved
  have hpointer : settled.1.pointer = (x / 16, y / 16) := by
    rw [State.pointer, show settled.1.glide.px = x from congrArg Scene.px hmoved, show settled.1.glide.py = y from congrArg Scene.py hmoved]
  rw [State.PointerOnScreen, hactive, hpointer, State.holdsPoint_congr (s := s) (by rw [hmoved])] at hholds
  refine .of_pointer (by simp [htarget, hmoved]) (by simp [htarget, hmoved]) fun hl hp => ?_
  have hon := hsome hl.1 hl.2.1 hp.screen
  exact .of_scene (s := s) (by simp [htarget, hmoved]) hp.shown (by simpa [htarget, hmoved] using hon)
    (by simpa [htarget, hmoved] using .inr (hholds hl.1 hon))

theorem State.detachedMotion_keepsSound (e : PointerEvent) (s : State) : s.KeepsSound (s.detachedMotion e) :=
  .trans (.of_scene (by rw [State.buttonsAndReport_scene]; rfl)) (State.completeRelease_keepsSound e _)

theorem State.pinnedMotion_keepsSound (e : PointerEvent) (t : Target) (s : State) : s.KeepsSound (s.pinnedMotion e t) :=
  .of_scene (by rw [State.pinnedMotion, State.buttonsAndReport_scene]; rfl)

theorem State.pointerEvent_keepsSound (e : PointerEvent) (s : State) : s.KeepsSound (s.pointerEvent e) := by
  unfold State.pointerEvent
  split
  · exact State.pinnedMotion_keepsSound ..
  · split
    · exact State.detachedMotion_keepsSound ..
    · exact State.followingMotion_keepsSound ..

end Sys2Proof.Machine
end

section
/-! SUPPORT. Table records: what an accepted write says of its fields, and that writing an entry keeps the tables in range (R12, R63, R166). -/

namespace Sys2Proof.Machine

/-! ## What an accepted write says of its fields (R12, R63, R166) -/

theorem splitFields_length (specs : List FieldSpec) : ∀ bytes : List Byte, (splitFields specs bytes).length = specs.length := by
  induction specs with
  | nil => intro _; rfl
  | cons f fs ih => intro bytes; simp [splitFields, ih]

theorem firstRefusal_none {lock holder : Bool} {further : Nat → Bool} {specs : List FieldSpec} :
    ∀ {n : Nat} {new old : List Nat}, firstRefusal lock holder further n specs new old = none →
      new.length = specs.length → old.length = specs.length → ∀ {k : Nat} {f : FieldSpec}, specs[k]? = some f →
      fieldCheck lock holder (further (n + k)) f (fieldAt new k) (fieldAt old k) = none := by
  induction specs with
  | nil => intro _ _ _ _ _ _ k f hk; simp at hk
  | cons g gs ih =>
    intro n new old h hnew hold k f hk
    obtain ⟨v, new, rfl⟩ := List.exists_cons_of_length_eq_add_one hnew
    obtain ⟨w, old, rfl⟩ := List.exists_cons_of_length_eq_add_one hold
    unfold firstRefusal at h
    split at h
    · cases h
    rename_i hg
    cases k with
    | zero =>
      obtain rfl : g = f := by simpa using hk
      exact hg
    | succ k =>
      have := ih h (by simpa using hnew) (by simpa using hold) (k := k) (f := f) (by simpa using hk)
      rw [show n + (k + 1) = n + 1 + k by omega]
      exact this

theorem fieldCheck_ok {lock holder further : Bool} {f : FieldSpec} {new old : Nat} (hf : f.cls ≠ .readOnly)
    (h : fieldCheck lock holder further f new old = none) : f.ok new = true ∧ further = true := by
  unfold fieldCheck at h
  cases hc : f.cls <;> simp only [hc] at h hf
  case readOnly => exact absurd rfl hf
  all_goals
    split at h
    · cases h
    · rename_i hn
      simpa using hn

theorem fieldCheck_layout {lock holder further : Bool} {f : FieldSpec} {new old : Nat} (hf : f.cls = .layout)
    (h : fieldCheck lock holder further f new old = none) : holder = true ∨ new = old := by
  unfold fieldCheck at h
  simp only [hf] at h
  split at h
  · cases h
  · split at h
    · rename_i hn; simpa using hn
    · cases h

theorem State.fieldsOf_length (s : State) (t : Target) (e : TableEntry) : (s.fieldsOf t e).length = e.specs.length := by
  cases e with
  | tiers i =>
    have hs : ((s.layoutFor t).tiers[i].slots.toList.flatMap fun q => [flagNum q.used, q.endX, optNum q.display]).length = 18 := by
      simp [List.length_flatMap]
    show _ + 1 + 1 = _
    rw [hs]
    rfl
  | _ => rfl

/-- Every field of an accepted write passed its check. -/
theorem State.accepted_field {s : State} {t : Target} {e : TableEntry} {new : List Nat} (h : s.refusal t e new = none)
    (hlen : new.length = e.specs.length) {k : Nat} {f : FieldSpec} (hk : e.specs[k]? = some f) :
    fieldCheck s.lockStrap (s.holdOwner = some t) (s.furtherCheck e new (1 + k)) f (fieldAt new k) (fieldAt (s.fieldsOf t e) k) = none :=
  firstRefusal_none h hlen (s.fieldsOf_length t e) hk

/-- A written field of an accepted write is in its range, and passed its further check. -/
theorem State.accepted_ok {s : State} {t : Target} {e : TableEntry} {new : List Nat} (h : s.refusal t e new = none)
    (hlen : new.length = e.specs.length) (k : Nat) {f : FieldSpec} (hk : e.specs[k]? = some f) (hf : f.cls ≠ .readOnly) :
    f.ok (fieldAt new k) = true ∧ s.furtherCheck e new (1 + k) = true :=
  fieldCheck_ok hf (State.accepted_field h hlen hk)

/-- A numeric field of an accepted write is within its bounds. -/
theorem State.accepted_between {s : State} {t : Target} {e : TableEntry} {new : List Nat} (h : s.refusal t e new = none)
    (hlen : new.length = e.specs.length) {k a b w : Nat} {c : FieldClass} (hk : e.specs[k]? = some ⟨w, c, between a b⟩)
    (hc : c ≠ .readOnly := by decide) : a ≤ fieldAt new k ∧ fieldAt new k ≤ b := by
  simpa [between] using (State.accepted_ok h hlen k hk hc).1

/-! ## The ranges of what an accepted write stores -/

section
variable {s : State} {t : Target} {new : List Nat}

theorem TierRec.ofFields_inRange {i : Tier} (h : s.refusal t (.tiers i) new = none) (hlen : new.length = tierSpecs.length) :
    (TierRec.ofFields new).InRange := by
  obtain ⟨h1, h2⟩ := State.accepted_between h hlen (k := 1) rfl
  refine ⟨h1, h2, fun q => ?_⟩
  have hq : tierSpecs[3 + 3 * q.val]? = some ⟨2, .layout, between 1 32768⟩ := by fin_cases q <;> rfl
  simpa [TierRec.ofFields] using State.accepted_between h hlen hq

theorem DisplayRec.ofFields_inRange {d : Display} (h : s.refusal t (.displays d) new = none)
    (hlen : new.length = displaySpecs.length) : (DisplayRec.ofFields new).InRange ∧ fieldAt new 5 ≤ 255 := by
  obtain ⟨h1, h1'⟩ := State.accepted_between h hlen (k := 1) rfl
  obtain ⟨h2, h2'⟩ := State.accepted_between h hlen (k := 2) rfl
  obtain ⟨-, h4⟩ := State.accepted_between h hlen (k := 4) rfl
  obtain ⟨-, h5⟩ := State.accepted_between h hlen (k := 5) rfl
  exact ⟨⟨h1, h1', h2, h2', h4⟩, h5⟩

theorem WindowRec.ofFields_inRange {w : Window} (h : s.refusal t (.windows w) new = none)
    (hlen : new.length = windowSpecs.length) : (WindowRec.ofFields new).InRange := by
  obtain ⟨-, h3⟩ := State.accepted_between h hlen (k := 3) rfl
  obtain ⟨-, h4⟩ := State.accepted_between h hlen (k := 4) rfl
  obtain ⟨h5, h5'⟩ := State.accepted_between h hlen (k := 5) rfl
  exact ⟨h3, h4, h5, h5'⟩

theorem HeadRec.ofFields_inRange {k : Head} (h : s.refusal t (.heads k) new = none) (hlen : new.length = headSpecs.length) :
    (HeadRec.ofFields new).InRange := by
  obtain ⟨-, h1⟩ := State.accepted_between h hlen (k := 1) rfl
  obtain ⟨-, h2⟩ := State.accepted_between h hlen (k := 2) rfl
  exact ⟨h1, h2⟩

theorem DeskSize.ofFields_inRange {u : Target} (h : s.refusal t (.targets u) new = none) (hlen : new.length = targetSpecs.length) :
    (DeskSize.ofFields new).InRange ∧ (TargetPolicy.ofFields new).wakeRetry ≤ 1 := by
  obtain ⟨h0, h0'⟩ := State.accepted_between h hlen (k := 0) rfl
  obtain ⟨h1, h1'⟩ := State.accepted_between h hlen (k := 1) rfl
  obtain ⟨-, h3⟩ := State.accepted_between h hlen (k := 3) rfl
  exact ⟨⟨h0, h0', h1, h1'⟩, h3⟩

theorem ConsoleEntry.ofFields_inRange {p : Port} (h : s.refusal t (.consoles p) new = none) (hlen : new.length = consoleSpecs.length) :
    1 ≤ (ConsoleEntry.ofFields new).gainSlow ∧ (ConsoleEntry.ofFields new).gainSlow ≤ 64 ∧
      1 ≤ (ConsoleEntry.ofFields new).gainFast ∧ (ConsoleEntry.ofFields new).gainFast ≤ 64 ∧
      (ConsoleEntry.ofFields new).threshold ≤ 1023 := by
  obtain ⟨h1, h1'⟩ := State.accepted_between h hlen (k := 1) rfl
  obtain ⟨h2, h2'⟩ := State.accepted_between h hlen (k := 2) rfl
  obtain ⟨-, h3⟩ := State.accepted_between h hlen (k := 3) rfl
  exact ⟨h1, h1', h2, h2', h3⟩

/-- The two further checks of R63 give a CHORD a key trigger, and FOCUS, WINDOW_TOGGLE, PRESET and WAKE an argument of 0..7. -/
theorem HotkeyEntry.ofFields_inRange {n : Fin 24} (h : s.refusal t (.hotkeys n) new = none) (hlen : new.length = hotkeySpecs.length) :
    (HotkeyEntry.ofFields new).InRange := by
  obtain ⟨htrigger, hchord⟩ := State.accepted_ok h hlen 4 rfl (by decide)
  obtain ⟨-, haction⟩ := State.accepted_between h hlen (k := 5) rfl
  obtain ⟨-, harg⟩ := State.accepted_between h hlen (k := 6) rfl
  have hsmall := (State.accepted_ok h hlen 6 rfl (by decide)).2
  simp only [triggerOk, between, Bool.or_eq_true, Bool.and_eq_true, decide_eq_true_eq] at htrigger
  simp [State.furtherCheck] at hchord hsmall
  refine ⟨harg, ?_, fun hkind => ?_, fun hact => ?_⟩
  · simp only [HotkeyEntry.ofFields, triggerOf]
    split
    · simp only [KeyItem.inRange, BitVec.toNat_ofNat, Bool.and_eq_true, decide_eq_true_eq]
      omega
    · rfl
  · have hzero : fieldAt new 1 = 0 := by
      simp only [HotkeyEntry.ofFields, hotkeyKindOf] at hkind
      split at hkind
      · assumption
      · split at hkind <;> cases hkind
    simp only [HotkeyEntry.ofFields, triggerOf]
    rw [if_pos (hchord.resolve_left (not_not_intro hzero))]
    rfl
  · simp only [HotkeyEntry.ofFields] at hact ⊢
    rcases hsmall with hlt | hother
    · omega
    · exfalso
      interval_cases fieldAt new 5 <;> simp_all [hotkeyActions]

theorem DeskEntry.ofFields_inRange (h : s.refusal t .desk new = none) (hlen : new.length = deskSpecs.length) :
    let e := DeskEntry.ofFields new
    e.resistance ≤ 1023 ∧ 100 ≤ e.tapWindow ∧ e.tapWindow ≤ 1000 ∧ 500 ≤ e.leaderTime ∧
      e.leaderTime ≤ 5000 ∧ 1 ≤ e.wakeTimeout ∧ e.wakeTimeout ≤ 60 ∧ 50 ≤ e.stallTime ∧
      e.stallTime ≤ 2000 ∧ e.deskIdle ≤ 240 ∧ 4 ≤ e.coalesce ∧ e.coalesce ≤ 31 ∧
      1 ≤ e.holdFrames ∧ e.holdFrames ≤ 1000 ∧ 1 ≤ e.staleFrames ∧ e.staleFrames ≤ 255 := by
  have hok : ∀ {k a b w : Nat}, deskSpecs[k]? = some ⟨w, .live, between a b⟩ → a ≤ fieldAt new k ∧ fieldAt new k ≤ b :=
    fun hk => State.accepted_between (e := .desk) h hlen hk
  obtain ⟨-, resistance⟩ := hok (k := 1) rfl
  obtain ⟨tapWindow, tapWindow'⟩ := hok (k := 2) rfl
  obtain ⟨leaderTime, leaderTime'⟩ := hok (k := 3) rfl
  obtain ⟨wakeTimeout, wakeTimeout'⟩ := hok (k := 4) rfl
  obtain ⟨stallTime, stallTime'⟩ := hok (k := 5) rfl
  obtain ⟨-, deskIdle⟩ := hok (k := 6) rfl
  obtain ⟨coalesce, coalesce'⟩ := hok (k := 8) rfl
  obtain ⟨holdFrames, holdFrames'⟩ := hok (k := 9) rfl
  obtain ⟨staleFrames, staleFrames'⟩ := hok (k := 10) rfl
  exact ⟨resistance, tapWindow, tapWindow', leaderTime, leaderTime', wakeTimeout, wakeTimeout', stallTime, stallTime', deskIdle,
    coalesce, coalesce', holdFrames, holdFrames', staleFrames, staleFrames'⟩

end

/-! ## An accepted write keeps layout store and tables sound -/

/-- A state that differs in its store only, and in a sound way, is as sound. -/
theorem State.KeepsSound.of_store {s t : State} (h : t.scene = { s.scene with store := t.scene.store })
    (hl : s.LayoutSound → t.LayoutSound) (ht : s.TablesInRange → t.TablesInRange) : s.KeepsSound t :=
  ⟨hl, ht, fun _ hp => .of_scene (s := s) (by rw [h]) hp.shown (by rw [h]; exact hp.screen) (by rw [h]; exact hp.holds)⟩

theorem forall_upd {α : Type} {n : Nat} {P : α → Prop} {v : Vector α n} {i : Fin n} {f : α → α} (h : ∀ j : Fin n, P v[j])
    (hf : P (f v[i])) (j : Fin n) : P (upd v i f)[j] := by
  rw [upd_get_eq]
  split
  · rename_i e; subst e; exact hf
  · exact h j

/-- An edit of the layout under a hold keeps the store sound when it keeps the edit layout in range (R12). -/
theorem State.editLayout_keepsSound (t : Target) {f : Layout → Layout} (hf : ∀ L : Layout, L.InRange → (f L).InRange) (s : State) :
    s.KeepsSound (s.editLayout t f) := by
  unfold State.editLayout
  split
  · rename_i ho
    refine .of_store rfl (fun ⟨hv, ha, he, _⟩ => ⟨hv, ha, hf _ he, fun hn => ?_⟩) id
    rw [show s.holdOwner = none from hn] at ho
    cases ho
  · exact .refl s

theorem State.abandonHold_keepsSound (s : State) : s.KeepsSound s.abandonHold :=
  .of_store rfl (fun ⟨hv, ha, _, _⟩ => ⟨hv, ha, ha, fun _ => rfl⟩) id

theorem State.abandonHoldOf_keepsSound (t : Target) (s : State) : s.KeepsSound (s.abandonHoldOf t) := by
  unfold State.abandonHoldOf
  split
  · exact s.abandonHold_keepsSound
  · exact .refl s

theorem State.writeConsole_keepsSound (p : Port) {e : ConsoleEntry}
    (he : 1 ≤ e.gainSlow ∧ e.gainSlow ≤ 64 ∧ 1 ≤ e.gainFast ∧ e.gainFast ≤ 64 ∧ e.threshold ≤ 1023) (s : State) :
    s.KeepsSound (s.writeConsole p e) := by
  have hwritten : s.KeepsSound { s with consoles := upd s.consoles p fun _ => e } :=
    .of_store rfl id fun ⟨h1, h2, h3, h4⟩ =>
      ⟨h1, h2, forall_upd (P := fun e : ConsoleEntry => 1 ≤ e.gainSlow ∧ e.gainSlow ≤ 64 ∧ 1 ≤ e.gainFast ∧ e.gainFast ≤ 64 ∧
        e.threshold ≤ 1023) h3 he, h4⟩
  refine hwritten.trans (.of_scene ?_)
  unfold State.writeConsole
  dsimp only
  repeat' split
  all_goals rfl

theorem State.writeTarget_keepsSound (sender u : Target) {size : DeskSize} {pol : TargetPolicy} (hsize : size.InRange)
    (hpol : pol.wakeRetry ≤ 1) (s : State) : s.KeepsSound (s.writeTarget sender u size pol) := by
  have hedit := State.editLayout_keepsSound sender (f := fun L => { L with desktops := upd L.desktops u fun _ => size })
    (fun L ⟨h1, h2, h3, h4, h5⟩ => ⟨h1, h2, h3, h4, forall_upd h5 hsize⟩) s
  have hpolicy : ∀ x : State, x.KeepsSound { x with policies := upd x.policies u fun _ => pol } := fun x =>
    .of_store rfl id fun ⟨h1, h2, h3⟩ => ⟨h1, forall_upd (P := fun q : TargetPolicy => q.wakeRetry ≤ 1) h2 hpol, h3⟩
  unfold State.writeTarget
  dsimp only
  split
  · exact hedit.trans (hpolicy _)
  · exact (hedit.trans (hpolicy _)).trans (State.abandonHoldOf_keepsSound u _)

theorem State.writeEntry_keepsSound {s : State} {t : Target} {e : TableEntry} {new : List Nat} (h : s.refusal t e new = none)
    (hlen : new.length = e.specs.length) : s.KeepsSound (s.writeEntry t e new) := by
  cases e with
  | tiers i =>
    exact s.editLayout_keepsSound t (f := fun L => { L with tiers := upd L.tiers i fun _ => TierRec.ofFields new })
      fun L ⟨h1, h2, h3, h4, h5⟩ => ⟨forall_upd (P := TierRec.InRange) h1 (TierRec.ofFields_inRange h hlen), h2, h3, h4, h5⟩
  | displays d =>
    obtain ⟨hrec, hbudget⟩ := DisplayRec.ofFields_inRange h hlen
    refine (s.editLayout_keepsSound t (f := fun L => { L with displays := upd L.displays d fun _ => DisplayRec.ofFields new })
      fun L ⟨h1, h2, h3, h4, h5⟩ => ⟨h1, forall_upd (P := DisplayRec.InRange) h2 hrec, h3, h4, h5⟩).trans ?_
    exact .of_store rfl id fun ⟨h1, h2⟩ => ⟨forall_upd (P := fun b => b ≤ 255) h1 hbudget, h2⟩
  | windows w =>
    exact s.editLayout_keepsSound t (f := fun L => { L with windows := upd L.windows w fun _ => WindowRec.ofFields new })
      fun L ⟨h1, h2, h3, h4, h5⟩ => ⟨h1, h2, forall_upd (P := WindowRec.InRange) h3 (WindowRec.ofFields_inRange h hlen), h4, h5⟩
  | heads k =>
    exact s.editLayout_keepsSound t (f := fun L => { L with heads := upd L.heads k fun _ => HeadRec.ofFields new })
      fun L ⟨h1, h2, h3, h4, h5⟩ => ⟨h1, h2, h3, forall_upd (P := HeadRec.InRange) h4 (HeadRec.ofFields_inRange h hlen), h5⟩
  | targets u =>
    obtain ⟨hsize, hpol⟩ := DeskSize.ofFields_inRange h hlen
    exact s.writeTarget_keepsSound t u hsize hpol
  | consoles p => exact s.writeConsole_keepsSound p (ConsoleEntry.ofFields_inRange h hlen)
  | hotkeys n =>
    exact .of_store rfl id fun ⟨h1, h2, h3, h4, h5⟩ =>
      ⟨h1, h2, h3, forall_upd (P := HotkeyEntry.InRange) h4 (HotkeyEntry.ofFields_inRange h hlen), h5⟩
  | presets n => exact .of_scene rfl
  | desk => exact .of_store rfl id fun ⟨h1, h2, h3, h4, _⟩ => ⟨h1, h2, h3, h4, DeskEntry.ofFields_inRange h hlen⟩

end Sys2Proof.Machine
end

section
/-! SUPPORT. The blocks' own events (hotkeys, merge, lanes, heads, displays) keep layout store, tables and pointer sound. -/

namespace Sys2Proof.Machine

/-! ## Hotkey actions (R72 to R77) -/

/-- A changed shown set of enabled windows, re-evaluated, keeps the state sound. -/
theorem State.KeepsSound.of_reshown {s x : State} (c : Cause) (m : ModSet)
    (h : x.scene = { s.scene with plane := { s.scene.plane with shown := x.scene.plane.shown } })
    (hshown : s.ShownSound → x.ShownSound) : s.KeepsSound (x.reevaluate c m) := by
  obtain ⟨r, hscene, -⟩ := x.reevaluate_target c m
  have ha : x.active = s.active := congrArg (fun c => c.plane.layout) h
  have hp : x.pointer = s.pointer := by
    rw [State.pointer, show x.glide.px = s.glide.px from congrArg Scene.px h, show x.glide.py = s.glide.py from congrArg Scene.py h]
    rfl
  refine .of_pointer (by rw [hscene, h]) (by rw [hscene, h]) fun hl hs => ?_
  exact State.reevaluate_pointerSound c m (by rw [ha]; exact hl.1) (hshown hs.shown)
    (by rw [State.PointerOnScreen, ha, hp]; exact hs.screen)

/-- One enabled window's shown flag changed keeps the shown set sound. -/
theorem State.modWindow_shownSound {w : Window} {f : WindowState → WindowState} {s : State}
    (he : s.active.windows[w].enabled = true) (h : s.ShownSound) : (s.modWindow w f).ShownSound := by
  intro v hv
  rw [State.modWindow_windows, upd_get_eq] at hv
  rw [State.modWindow_active]
  split at hv
  · rename_i e; subst e; exact he
  · exact h v hv

theorem State.focusAction_keepsSound (e : HotkeyEntry) (m : ModSet) (t : Target) (s : State) : s.KeepsSound (s.focusAction e m t) := by
  unfold State.focusAction
  split
  · exact .refl s
  · exact State.directed_keepsSound ..

theorem State.windowToggle_keepsSound (w : Window) (m : ModSet) (s : State) : s.KeepsSound (s.windowToggle w m) := by
  unfold State.windowToggle
  split
  · rename_i he
    exact .of_reshown _ _ rfl (State.modWindow_shownSound he)
  · exact .refl s

theorem State.setShown_shownSound (set : WindowSet) (s : State) : (s.setShown set).ShownSound := by
  intro w hw
  simp only [State.setShown, updAll_get, Bool.and_eq_true] at hw
  exact hw.2

/-- A shown set of the same members is the same scene. -/
theorem State.setShown_scene_of_shownSet {set : WindowSet} {s : State} (h : (s.setShown set).shownSet = s.shownSet) :
    (s.setShown set).scene = s.scene := by
  have hw : ∀ w : Window, (s.setShown set).windows[w].shown = s.windows[w].shown := fun w => by
    have hhas := congrArg (fun x => has x w) h
    simpa only [State.shownSet, has_maskOf] using hhas
  have hshown : (s.setShown set).scene.plane.shown = s.scene.plane.shown := funext hw
  show ({ s.scene with plane := { s.scene.plane with shown := (s.setShown set).scene.plane.shown } } : Scene) = s.scene
  rw [hshown]

theorem State.applyPreset_keepsSound (e : HotkeyEntry) (m : ModSet) (s : State) : s.KeepsSound (s.applyPreset e m) := by
  have hreevaluated : ∀ set : WindowSet, s.KeepsSound ((s.setShown set).reevaluate .window m) := fun set =>
    .of_reshown _ _ rfl fun _ => s.setShown_shownSound set
  unfold State.applyPreset
  dsimp only
  split
  · split
    · rename_i hsame
      exact .of_scene (State.setShown_scene_of_shownSet hsame)
    · exact hreevaluated _
  · split
    · exact hreevaluated _
    · rename_i t _ hfar
      obtain ⟨hplane, hstore⟩ := (s.setShown s.presets[e.arg8].windows).directed_scene t .hotkey m
      refine .of_pointer (by rw [hplane]; rfl) hstore fun hl hs =>
        State.directed_pointerSound _ _ hl.1 hl.2.1 (s.setShown_shownSound _) hs.screen fun he hn => hfar ?_
      rw [hn, he]
      simp

theorem State.fire_keepsSound (e : HotkeyEntry) (m : ModSet) (s : State) : s.KeepsSound (s.fire e m) := by
  unfold State.fire
  split
  · exact State.focusAction_keepsSound ..
  · split
    · exact State.focusAction_keepsSound ..
    · exact .refl s
  · split
    · exact State.focusAction_keepsSound ..
    · exact .refl s
  · exact .of_scene rfl
  · exact .of_store rfl id id
  · exact State.windowToggle_keepsSound ..
  · exact State.applyPreset_keepsSound ..
  · exact .of_scene (State.wakeRequest_scene ..)
  · exact .of_scene rfl

/-! ## The detector and the merge engine (R30 to R35, R64 to R71) -/

@[simp] theorem State.handPress_scene (p : Port) (i : KeyItem) (s : State) : (s.handPress p i).scene = s.scene := by
  simp [State.handPress]

@[simp] theorem State.settlePress_scene (e : HotkeyEntry) (p : Port) (i : KeyItem) (s : State) :
    (s.settlePress e p i).scene = s.scene := by
  unfold State.settlePress
  split
  · simp
  · rfl

theorem State.pressIdle_keepsSound (p : Port) (i : KeyItem) (held : ModSet) (s : State) : s.KeepsSound (s.pressIdle p i held).1 := by
  unfold State.pressIdle
  split
  · rename_i e _
    exact (.of_scene (t := s.setDetector Detector.initial) rfl : s.KeepsSound _).trans
      ((State.fire_keepsSound e _ _).trans (.of_scene (State.settlePress_scene ..)))
  · exact .of_scene (by simp)

theorem State.detectPress_keepsSound (p : Port) (i : KeyItem) (held : ModSet) (s : State) : s.KeepsSound (s.detectPress p i held).1 := by
  have hclear : s.KeepsSound (s.setDetector Detector.initial) := .of_scene rfl
  have hidle := hclear.trans (State.pressIdle_keepsSound p i held _)
  unfold State.detectPress
  split
  · exact State.pressIdle_keepsSound ..
  · unfold State.pressTapWait
    dsimp only
    split
    · rename_i e _
      exact hclear.trans ((State.fire_keepsSound e 0 _).trans (.of_scene (State.handPress_scene ..)))
    · exact hidle
  · unfold State.pressLeader
    dsimp only
    split
    · rename_i e _
      exact hclear.trans ((State.fire_keepsSound e 0 _).trans (.of_scene (State.settlePress_scene ..)))
    · exact hidle

theorem State.handRelease_keepsSound (p : Port) (s : State) (i : KeyItem) : s.KeepsSound (s.handRelease p i) := by
  refine .of_scene ?_
  unfold State.handRelease State.detectRelease
  dsimp only
  repeat' split
  all_goals simp

theorem State.handOnPress_keepsSound (p : Port) (mods : ModSet) (a : State × Bool) (i : KeyItem) :
    a.1.KeepsSound (State.handOnPress p mods a i).1 := by
  unfold State.handOnPress
  split
  · exact .of_scene (State.keyPress_scene ..)
  · split
    · exact .of_scene rfl
    · exact State.detectPress_keepsSound ..

theorem State.foldl_handOnPress_keepsSound (p : Port) (mods : ModSet) (l : List KeyItem) (a : State × Bool) :
    a.1.KeepsSound (l.foldl (State.handOnPress p mods) a).1 := by
  induction l generalizing a with
  | nil => exact .refl _
  | cons i l ih => exact (State.handOnPress_keepsSound p mods a i).trans (ih _)

theorem State.takeKeys_keepsSound (p : Port) (mods : ModSet) (list : List Key) (swallowed : Bool) (s : State) :
    s.KeepsSound (s.takeKeys p mods list swallowed) := by
  have hreleases : ∀ l : List KeyItem, s.KeepsSound (l.foldl (State.handRelease p) s) := fun l =>
    foldl_keepsSound (fun x i => State.handRelease_keepsSound p x i) l s
  unfold State.takeKeys
  dsimp only
  refine .trans ?_ (.of_scene (State.modPort_scene ..))
  split
  · exact (hreleases _).trans (.of_scene (State.modPort_scene ..))
  · exact (hreleases _).trans (State.foldl_handOnPress_keepsSound p mods _ (_, false))

theorem State.handButtonReleases_keepsSound (p : Port) (b r : ButtonSet) (s : State) : s.KeepsSound (s.handButtonReleases p b r) := by
  unfold State.handButtonReleases
  split
  · exact .refl s
  · exact State.pointerEvent_keepsSound ..

theorem State.takeMotion_keepsSound (p : Port) (dx dy wheel : Int) (b : ButtonSet) (swallowed : Bool) (s : State) :
    s.KeepsSound (s.takeMotion p dx dy wheel b swallowed) := by
  unfold State.takeMotion
  dsimp only
  refine .trans ?_ (.of_scene (State.modPort_scene ..))
  split
  · exact (.of_scene (State.modPort_scene ..) : s.KeepsSound _).trans (State.handButtonReleases_keepsSound ..)
  · exact State.pointerEvent_keepsSound ..

theorem State.takeReleaseAll_keepsSound (p : Port) (s : State) : s.KeepsSound (s.takeReleaseAll p) := by
  unfold State.takeReleaseAll
  exact (foldl_keepsSound (fun x i => State.handRelease_keepsSound p x i) _ s).trans
    ((State.handButtonReleases_keepsSound ..).trans (.of_scene (State.modPort_scene ..)))

theorem State.mergeTake_keepsSound (s : State) : s.KeepsSound s.mergeTake := by
  unfold State.mergeTake
  split
  · exact .refl s
  · split
    · exact .refl s
    · rename_i p _ _ e rest _
      refine .trans (b := ({ s with mergeLast := p } : State).modPort p fun q => { q with fifo := rest }) (.of_scene rfl) ?_
      cases e with
      | keys mods list m => exact State.takeKeys_keepsSound ..
      | motion dx dy wheel b m => exact State.takeMotion_keepsSound ..
      | releaseAll => exact State.takeReleaseAll_keepsSound ..

/-! ## Console lanes, target lanes, power states -/

theorem State.storeFifo_keepsSound (p : Port) (l : Option (List FifoEntry)) (s : State) : s.KeepsSound (s.storeFifo p l) := by
  refine .of_scene ?_
  unfold State.storeFifo
  split <;> rfl

theorem State.arriveKeys_keepsSound (p : Port) (mods : ModSet) (l : KeyList) (s : State) : s.KeepsSound (s.arriveKeys p mods l) := by
  have hactivity : s.KeepsSound s.activity := .of_scene rfl
  cases l with
  | rollover => exact hactivity
  | keys l => exact hactivity.trans (State.storeFifo_keepsSound ..)

theorem State.arriveMotion_keepsSound (p : Port) (dx dy : BitVec 16) (wheel buttons : Byte) (s : State) :
    s.KeepsSound (s.arriveMotion p dx dy wheel buttons) :=
  (.of_scene rfl : s.KeepsSound s.activity).trans (State.storeFifo_keepsSound ..)

theorem State.detachConsole_keepsSound (p : Port) (s : State) : s.KeepsSound (s.detachConsole p) := by
  unfold State.detachConsole
  split
  · exact .of_scene rfl
  · exact .refl s

/-- A teardown may abandon a hold (R15, R104). -/
theorem State.teardown_keepsSound (t : Target) (s : State) : s.KeepsSound (s.teardown t) := by
  have h1 : s.KeepsSound ((s.clearInput t).modTarget t TargetPort.tornDown) := .of_scene rfl
  exact (h1.trans (State.abandonHoldOf_keepsSound t _)).trans (.of_scene rfl)

theorem State.attachTarget_keepsSound (t : Target) (m : Mode) (s : State) : s.KeepsSound (s.attachTarget t m) := by
  unfold State.attachTarget
  refine .trans ?_ (.of_scene (State.modTarget_scene ..))
  split
  · exact State.teardown_keepsSound ..
  · exact .refl s

theorem State.detachTarget_keepsSound (t : Target) (s : State) : s.KeepsSound (s.detachTarget t) := by
  unfold State.detachTarget
  split
  · exact State.teardown_keepsSound ..
  · exact .refl s

theorem onAttached_keepsSound (t : Target) {f : State → State} (hf : ∀ s : State, s.KeepsSound (f s)) (s : State) :
    s.KeepsSound (onAttached t f s) := by
  unfold onAttached
  split
  · exact hf s
  · exact .refl s

theorem State.changeMode_keepsSound (t : Target) (m : Mode) (s : State) : s.KeepsSound (s.changeMode t m) := by
  refine .of_scene ?_
  unfold State.changeMode
  dsimp only
  split <;> rfl

theorem State.offerControl_keepsSound (t : Target) (f : ControlFrame) (s : State) : s.KeepsSound (s.offerControl t f) := by
  refine .of_scene ?_
  unfold State.offerControl
  split <;> simp

theorem State.sendReport_keepsSound (t : Target) (s : State) : s.KeepsSound (s.sendReport t) := by
  refine .of_scene ?_
  unfold State.sendReport
  split
  · rfl
  · split <;> simp

theorem State.stallExpiry_keepsSound (t : Target) (s : State) : s.KeepsSound (s.stallExpiry t) := by
  refine .of_scene ?_
  unfold State.stallExpiry
  split <;> rfl

theorem State.takePower_keepsSound (t : Target) (v : PowerValue) (s : State) : s.KeepsSound (s.takePower t v) := by
  refine .of_scene ?_
  unfold State.takePower
  split <;> rfl

theorem State.wakeExpiry_keepsSound (t : Target) (s : State) : s.KeepsSound (s.wakeExpiry t) := by
  refine .of_scene ?_
  unfold State.wakeExpiry
  split
  · split
    · simp
    · rfl
  · rfl

theorem State.idleExpiry_keepsSound (s : State) : s.KeepsSound s.idleExpiry := by
  refine .of_scene ?_
  unfold State.idleExpiry
  repeat' split
  all_goals rfl

/-! ## Heads and displays -/

theorem State.modHead_scene {h : Head} {f : HeadState → HeadState} {s : State} (hf : (f s.heads[h]).measured = s.heads[h].measured) :
    (s.modHead h f).scene = s.scene := by
  have hm : (s.modHead h f).scene.plane.measured = s.scene.plane.measured := funext fun k => by
    show (upd s.heads h f)[k].measured = s.heads[k].measured
    rw [upd_get_eq]
    split
    · rename_i e; subst e; exact hf
    · rfl
  show ({ s.scene with plane := { s.scene.plane with measured := (s.modHead h f).scene.plane.measured } } : Scene) = s.scene
  rw [hm]

theorem State.modWindow_scene {w : Window} {f : WindowState → WindowState} {s : State} (hf : ∀ r, (f r).shown = r.shown) :
    (s.modWindow w f).scene = s.scene := by
  have hs : (s.modWindow w f).scene.plane.shown = s.scene.plane.shown := funext fun v => by
    show (upd s.windows w f)[v].shown = s.windows[v].shown
    rw [upd_get_eq]
    split
    · exact hf _
    · rfl
  show ({ s.scene with plane := { s.scene.plane with shown := (s.modWindow w f).scene.plane.shown } } : Scene) = s.scene
  rw [hs]

theorem HeadState.arrival_measured (h : HeadState) : h.arrival.measured = h.measured := by
  unfold HeadState.arrival; split <;> rfl

theorem HeadState.loss_measured (h : HeadState) : h.loss.measured = h.measured := by
  unfold HeadState.loss; split <;> rfl

/-- Only a frame end that makes the head lock sets its measured geometry (R125). -/
theorem HeadState.frameEnd_measured (g : Geometry) (pic : Nat) (h : HeadState) :
    (h.frameEnd g pic).measured = if h.locks g then some (measuredGeometry g) else h.measured := by
  unfold HeadState.frameEnd HeadState.locks
  split
  · rename_i hl; simp [hl]
  · rename_i hl; split <;> simp_all
  · rename_i hl; split <;> simp_all [HeadState.store]

/-- A changed measured geometry may move regions, so the region is re-evaluated (R127). -/
theorem State.headFrameEnd_keepsSound (h : Head) (g : Geometry) (pic : Nat) (s : State) : s.KeepsSound (s.headFrameEnd h g pic) := by
  have hm := HeadState.frameEnd_measured g pic s.heads[h]
  unfold State.headFrameEnd
  dsimp only
  split
  · rename_i hlock
    rw [if_pos hlock] at hm
    unfold State.afterLock
    refine .trans ?_ (.of_scene (State.checkMismatch_scene ..))
    split
    · obtain ⟨r, hscene, -⟩ := (s.modHead h (HeadState.frameEnd g pic)).reevaluate_target .window 0
      exact .of_pointer (by rw [hscene]; rfl) (by rw [hscene]; rfl) fun hl hs =>
        State.reevaluate_pointerSound _ _ hl.1 hs.shown hs.screen
    · rename_i hsame
      exact .of_scene (State.modHead_scene (by rw [hm]; simpa using Eq.symm (by simpa using hsame)))
  · rename_i hlock
    rw [if_neg hlock] at hm
    exact .of_scene (State.modHead_scene hm)

theorem WindowState.settle_shown (granted : Bool) (latest : Option VideoFrame) (r : WindowState) :
    (r.settle granted latest).shown = r.shown := by
  unfold WindowState.settle
  generalize (if granted then _ else none : Option VideoFrame) = x
  cases x <;> rfl

theorem State.settleWindow_scene (s : State) (q : Window × Bool) : (s.settleWindow q).scene = s.scene := by
  have hsettled := State.modWindow_scene (w := q.1) (s := s)
    (f := WindowState.settle q.2 s.heads[s.active.windows[q.1].source].latest) (WindowState.settle_shown _ _)
  unfold State.settleWindow
  dsimp only
  split
  · rw [State.raise_scene, State.modWindow_scene (f := fun r => { r with stale := true }) fun _ => rfl, hsettled]
  · exact hsettled

theorem State.displayFrame_keepsSound (d : Display) (s : State) : s.KeepsSound (s.displayFrame d) := by
  have hloss : (s.advanceLoss d).scene = s.scene := by
    unfold State.advanceLoss
    split
    · rfl
    · exact State.modHead_scene (by split <;> rfl)
  refine .of_scene ?_
  unfold State.displayFrame State.composeFrame
  split
  · dsimp only
    rw [State.modDisplay_scene, foldl_scene State.settleWindow_scene, hloss]
  · rfl

end Sys2Proof.Machine
end

section
/-! PROOFS. Releases, resets and the control engine keep layout store, tables and pointer sound; so does every step (O55, O59). -/

namespace Sys2Proof.Machine

/-! ## A completed release (R20, R21, R59) -/

/-- A window is shown after a release only where the new layout enables it (R20). -/
theorem WindowState.release_shown {old new : WindowRec} {r : WindowState} (h : (r.release old new).shown = true) : new.enabled = true := by
  have hs : (r.release old new).shown = shownAfter old.enabled new.enabled r.shown := by
    unfold WindowState.release; dsimp only; split <;> rfl
  rw [hs] at h
  revert h
  cases old.enabled <;> cases new.enabled <;> simp [shownAfter]

theorem State.putInForce_shownSound (s : State) : s.putInForce.ShownSound := by
  intro w hw
  rw [State.putInForce, updAll_get] at hw
  exact WindowState.release_shown hw

theorem rehomeAxis_bounds {size frac : Nat} (hs : 0 < size) (hf : frac < 16) (x u : Nat) :
    x ≤ (x * 16 + rehomeAxis size u frac) / 16 ∧ (x * 16 + rehomeAxis size u frac) / 16 < x + size := by
  unfold rehomeAxis
  split <;> omega

/-- Re-home puts the pointer on a screen: on its display's, or at the centre of the first (R21). -/
theorem State.rehome_pointer (old : Layout) (s : State) : ∃ x y, (s.rehome old).scene = { s.scene with px := x, py := y } ∧
    (s.active.valid = true → s.active.InRange → (s.active.lookup (x / 16) (y / 16)).isSome = true) := by
  unfold State.rehome
  split
  · rename_i p p' h
    refine ⟨_, _, State.setPointer_scene .., fun hv hr => ?_⟩
    obtain ⟨q, -, hq⟩ := Option.bind_eq_some_iff.1 h
    obtain ⟨q', hplace, heq⟩ := Option.map_eq_some_iff.1 hq
    cases heq
    obtain ⟨hw, hh⟩ := Layout.screen_pos hr p'
    have hx := rehomeAxis_bounds hw (Nat.mod_lt s.glide.px (by decide)) (s.active.screen p').x (s.pointer.1 - (old.screen p).x)
    have hy := rehomeAxis_bounds hh (Nat.mod_lt s.glide.py (by decide)) (s.active.screen p').y (s.pointer.2 - (old.screen p).y)
    rw [Layout.lookup_of_contains hv (Layout.placeOf_spec hplace).1 (Rect.contains_iff.2 ⟨hx.1, hx.2, hy.1, hy.2⟩)]
    rfl
  · refine ⟨_, _, State.setPointer_scene .., fun hv hr => ?_⟩
    obtain ⟨p, hmem, hfirst⟩ := Layout.firstScreen_isSome hv
    obtain ⟨hw, hh⟩ := Layout.screen_pos hr p
    simp only [State.centreOfFirst, hfirst, Nat.mul_div_cancel _ (show 0 < 16 by decide)]
    rw [Layout.lookup_of_contains hv hmem (Rect.contains_centre hw hh)]
    rfl

/-- A detached focus after a release is still detached, or is at its first region (R59). -/
theorem State.releaseDetached_pointerSound {s : State} (hv : s.active.valid = true) (hr : s.active.InRange) (hshown : s.ShownSound)
    (hp : s.PointerOnScreen) (hd : s.focus.detached = true) : s.releaseDetached.PointerSound := by
  unfold State.releaseDetached
  split
  · rename_i q hq
    obtain ⟨hscreen, hholds⟩ := State.firstRegion_holds hv hr hq
    exact .of_scene (s := s) (by simp) hshown (by simpa using hscreen) (by simpa using show s.holdsPoint s.scene.target q.1 q.2 = true from hholds)
  · exact .of_scene (s := s) (by simp) hshown hp (.inl hd)

theorem State.releaseDetached_scene (s : State) :
    s.releaseDetached.scene.plane = s.scene.plane ∧ s.releaseDetached.scene.store = s.scene.store := by
  unfold State.releaseDetached
  split <;> simp

theorem State.ShownSound.congr {s t : State} (h : t.scene.plane = s.scene.plane) (hs : s.ShownSound) : t.ShownSound := by
  simp only [State.scene, Plane.mk.injEq, funext_iff] at h
  obtain ⟨ha, hw, -⟩ := h
  intro w
  rw [hw, ha]
  exact hs w

/-- A release puts the edit layout in force, closes the hold and keeps the tables; of a layout that passes its checks, it leaves the
pointer sound (R16, R20, R21, R22). -/
theorem State.completeLayout_scene (s : State) : s.completeLayout.scene.plane.layout = s.edit ∧
    s.completeLayout.scene.store = { s.scene.store with holdOwner := none } ∧
    (s.edit.valid = true → s.edit.InRange → s.completeLayout.PointerSound) := by
  obtain ⟨px, py, hhomed, hsome⟩ := s.putInForce.rehome_pointer s.active
  have hraised : ∀ x : State, x.PointerSound → (x.checkMismatch fun _ => true).PointerSound := fun x hx =>
    have hc := State.checkMismatch_scene (fun _ => true) x
    .of_scene (by rw [hc]) hx.shown (by rw [hc]; exact hx.screen) (by rw [hc]; exact hx.holds)
  unfold State.completeLayout
  dsimp only
  rw [← State.clearPressure_scene] at hhomed
  generalize (s.putInForce.rehome s.active).clearPressure = x at hhomed ⊢
  have ha : x.active = s.edit := congrArg (fun c => c.plane.layout) hhomed
  have hshown : x.ShownSound := .congr (by rw [hhomed]) s.putInForce_shownSound
  have hscreen : s.edit.valid = true → s.edit.InRange → x.PointerOnScreen := fun hv hr => by
    rw [State.PointerOnScreen, State.pointer, ha, show x.glide.px = px from congrArg Scene.px hhomed,
      show x.glide.py = py from congrArg Scene.py hhomed]
    exact hsome hv hr
  rw [State.checkMismatch_scene]
  split
  · rename_i hd
    obtain ⟨hplane, hstore⟩ := x.releaseDetached_scene
    refine ⟨by rw [hplane, hhomed]; rfl, by rw [hstore, hhomed]; rfl, fun hv hr => hraised _ ?_⟩
    rw [← ha] at hv hr hscreen
    exact State.releaseDetached_pointerSound hv hr hshown (hscreen hv hr) hd
  · obtain ⟨r, hscene, -⟩ := x.reevaluate_target .layout 0
    refine ⟨by rw [hscene, hhomed]; rfl, by rw [hscene, hhomed]; rfl, fun hv hr => hraised _ ?_⟩
    rw [← ha] at hv hr hscreen
    exact State.reevaluate_pointerSound _ _ hv hshown (hscreen hv hr)

theorem State.completeLayout_keepsSound {s : State} (hv : s.edit.valid = true) : s.KeepsSound s.completeLayout := by
  obtain ⟨ha, hstore, hpointer⟩ := s.completeLayout_scene
  replace ha : s.completeLayout.active = s.edit := ha
  simp only [State.scene, Store.mk.injEq] at hstore
  obtain ⟨he, ho, hb, hpol, hcon, hhot, hdesk⟩ := hstore
  refine ⟨fun ⟨_, _, hr, _⟩ => ?_, fun h => ?_, fun hl _ => hpointer hv hl.2.2.1⟩
  · rw [State.LayoutSound, ha, he]
    exact ⟨hv, hr, hr, fun _ => rfl⟩
  · rw [State.TablesInRange, hb, hpol, hcon, hhot, hdesk]
    exact h

/-! ## Resets (R9, R49, R176, R177) -/

theorem State.resetFocus_scene (s : State) :
    s.resetFocus.scene.plane = s.scene.plane ∧ s.resetFocus.scene.store = s.scene.store := by
  unfold State.resetFocus
  split <;> exact ⟨rfl, rfl⟩

/-- After a reset the pointer is at the centre of the first screen, and its owner has focus (R49). -/
theorem State.resetFocus_pointerSound {s : State} (hv : s.active.valid = true) (hr : s.active.InRange) (hshown : s.ShownSound) :
    s.resetFocus.PointerSound := by
  obtain ⟨p, hmem, hfirst⟩ := Layout.firstScreen_isSome hv
  obtain ⟨o, ho⟩ := Layout.owned hv hmem
  obtain ⟨hw, hh⟩ := Layout.screen_pos hr p
  have hl := Layout.lookup_of_contains hv hmem (Rect.contains_centre hw hh)
  have hscreen : s.resetFocus.scene.px / 16 = (s.active.screen p).centre.1 ∧ s.resetFocus.scene.py / 16 = (s.active.screen p).centre.2 ∧
      s.resetFocus.scene.target = o := by
    simp [State.resetFocus, hfirst, State.scene, Glide.at, ho]
  obtain ⟨hx, hy, ht⟩ := hscreen
  refine .of_scene s.resetFocus_scene.1 hshown ?_ (.inr ?_)
  · rw [hx, hy, hl]; rfl
  · rw [hx, hy, ht]; exact State.holdsPoint_of_screen hl ho

theorem State.resetFocus_keepsSound (s : State) : s.KeepsSound s.resetFocus :=
  .of_pointer (by rw [s.resetFocus_scene.1]) s.resetFocus_scene.2 fun hl hp => State.resetFocus_pointerSound hl.1 hl.2.1 hp.shown

/-- A hard reset less its focus record and glide unit (R176). -/
def State.blocksReset (s : State) : State := { s with
  resetAsserted := true
  edit := s.active
  holdOwner := none
  ports := Vector.ofFn fun _ => ConsolePort.initial
  mergeLast := 3
  detector := Detector.initial
  keyStates := Vector.ofFn fun _ => KeyState.initial
  targets := Vector.ofFn fun _ => TargetPort.initial
  deskState := .awake
  idleTimer := none
  heads := Vector.ofFn fun _ => HeadState.initial
  displays := Vector.ofFn fun _ => DisplayState.initial
  windows := Vector.ofFn fun _ => WindowState.initial
  ctrlLast := 7
  executing := none
  notices := Vector.ofFn fun _ => 0
  subscribers := 0 }

theorem State.hardReset_eq (s : State) : s.hardReset = s.blocksReset.resetFocus := rfl

theorem State.blocksReset_shown (s : State) (w : Window) : s.blocksReset.windows[w].shown = false := by
  simp [State.blocksReset, WindowState.initial]

theorem State.hardReset_keepsSound (s : State) : s.KeepsSound s.hardReset := by
  obtain ⟨hplane, hstore⟩ := s.blocksReset.resetFocus_scene
  rw [State.hardReset_eq]
  have ha : s.blocksReset.resetFocus.active = s.active := congrArg Plane.layout hplane
  simp only [State.scene, Store.mk.injEq] at hstore
  obtain ⟨he, ho, hb, hpol, hcon, hhot, hdesk⟩ := hstore
  refine ⟨fun ⟨hv, hr, _, _⟩ => ?_, fun h => ?_, fun hl _ => ?_⟩
  · rw [State.LayoutSound, ha, he]
    exact ⟨hv, hr, hr, fun _ => rfl⟩
  · rw [State.TablesInRange, hb, hpol, hcon, hhot, hdesk]
    exact h
  · exact State.resetFocus_pointerSound hl.1 hl.2.1 fun w hw => absurd (s.blocksReset_shown w ▸ hw) (by decide)

theorem State.powerOn_layoutSound (cfgt : Target) (lock : Bool) : (State.powerOn cfgt lock).LayoutSound :=
  ⟨show powerOnLayout.valid = true by decide, show powerOnLayout.InRange by decide, show powerOnLayout.InRange by decide, fun _ => rfl⟩

theorem State.powerOn_tablesInRange (cfgt : Target) (lock : Bool) : (State.powerOn cfgt lock).TablesInRange := by
  refine ⟨show ∀ d : Display, powerOnBudgets[d] ≤ 255 by decide, fun t => ?_,
    show ∀ p : Port, _ from ?_, show ∀ n : Fin 24, powerOnHotkeys[n].InRange by decide, ?_⟩
  · simp [State.powerOn, powerOnPolicies]
  · show ∀ p : Port, 1 ≤ powerOnConsoles[p].gainSlow ∧ powerOnConsoles[p].gainSlow ≤ 64 ∧ 1 ≤ powerOnConsoles[p].gainFast ∧
      powerOnConsoles[p].gainFast ≤ 64 ∧ powerOnConsoles[p].threshold ≤ 1023
    decide
  · simp [State.powerOn, powerOnDesk]

theorem State.powerOn_pointerSound (cfgt : Target) (lock : Bool) : (State.powerOn cfgt lock).PointerSound where
  shown := fun w hw => by simp [State.powerOn, WindowState.initial] at hw
  screen := show (powerOnLayout.lookup (960 * 16 / 16) (540 * 16 / 16)).isSome = true by decide
  holds := .inr (State.holdsPoint_of_screen (p := ⟨0, 0, 0⟩)
    (show powerOnLayout.lookup (960 * 16 / 16) (540 * 16 / 16) = some ⟨0, 0, 0⟩ by decide)
    (show powerOnLayout.displayOwner 0 = some 0 by decide))

/-! ## DESK_RESET (R177) -/

theorem State.deskResetFocus_keepsSound (s : State) : s.KeepsSound s.deskResetFocus := by
  have hcleared : s.KeepsSound ((List.finRange 8).foldl (fun acc t => acc.clearInput t) s) :=
    .of_scene (foldl_scene (fun _ _ => State.clearInput_scene ..) _ s)
  unfold State.deskResetFocus
  dsimp only
  generalize (List.finRange 8).foldl (fun acc t => acc.clearInput t) s = cleared at hcleared ⊢
  refine .trans (.trans (hcleared.trans ?_) (State.resetFocus_keepsSound _)) (.of_scene (State.sendLeds_scene ..))
  exact .of_scene rfl

theorem State.takePart_keepsSound (stage : ResetStage) (s : State) : s.KeepsSound (s.takePart stage) := by
  cases stage with
  | focusUnit => exact s.deskResetFocus_keepsSound
  | targetPorts =>
    exact (.of_scene rfl : s.KeepsSound { s with targets := updAll s.targets fun _ p => p.deskReset }).trans
      (.of_scene (foldl_scene (fun _ _ => State.portEnd_scene ..) _ _))
  | compositor =>
    refine .of_scene ?_
    show ({ s.scene with plane := { s.scene.plane with shown := s.deskResetWindows.scene.plane.shown } } : Scene) = s.scene
    have hw : ∀ w : Window, s.deskResetWindows.windows[w].shown = s.windows[w].shown := fun w => by
      simp [State.deskResetWindows]
    rw [show s.deskResetWindows.scene.plane.shown = s.scene.plane.shown from funext hw]
  | layoutStore => exact s.abandonHold_keepsSound
  | noticeRecord => exact .of_scene rfl
  | answer => exact .refl s

/-! ## The control engine (R163) -/

theorem State.takeFrame_keepsSound (c : Option ControlCommand) {run : Target → ControlFrame → State → State}
    (h : ∀ (t : Target) (f : ControlFrame) (s : State), s.KeepsSound (run t f s)) (s : State) : s.KeepsSound (s.takeFrame c run) := by
  unfold State.takeFrame
  split
  · exact .refl s
  split
  · exact .refl s
  rename_i t f _
  split
  · have hlast : s.KeepsSound { s with ctrlLast := t } := .of_scene rfl
    dsimp only
    split
    · exact hlast.trans (h t f _)
    · exact hlast.trans (.of_scene (State.reply_scene ..))
  · exact .refl s

theorem State.control_keepsSound (c : Option ControlCommand) {body : Target → List Byte → State → State × Answer}
    (h : ∀ (t : Target) (args : List Byte) (s : State), s.KeepsSound (body t args s).1) (s : State) : s.KeepsSound (s.control c body) :=
  State.takeFrame_keepsSound c (fun t f x => (h t f.args x).trans (.of_scene (State.reply_scene ..))) s

theorem State.doTableRead_keepsSound (t : Target) (args : List Byte) (s : State) : s.KeepsSound (s.doTableRead t args).1 := by
  unfold State.doTableRead
  split <;> exact .refl s

theorem State.doTableWrite_keepsSound (t : Target) (args : List Byte) (s : State) : s.KeepsSound (s.doTableWrite t args).1 := by
  unfold State.doTableWrite
  split
  · dsimp only
    split
    · exact .refl s
    · rename_i h
      exact State.writeEntry_keepsSound h (splitFields_length ..)
  · exact .refl s

theorem State.doLayoutHold_keepsSound (t : Target) (args : List Byte) (s : State) : s.KeepsSound (s.doLayoutHold t args).1 := by
  unfold State.doLayoutHold
  split
  · exact .of_store rfl (fun ⟨hv, hr, _, _⟩ => ⟨hv, hr, hr, fun _ => rfl⟩) id
  · split <;> exact .refl s

theorem State.doLayoutAbandon_keepsSound (t : Target) (args : List Byte) (s : State) : s.KeepsSound (s.doLayoutAbandon t args).1 := by
  unfold State.doLayoutAbandon
  split
  · exact s.abandonHold_keepsSound
  · exact .refl s

theorem State.doLayoutRelease_keepsSound (t : Target) (args : List Byte) (s : State) : s.KeepsSound (s.doLayoutRelease t args).1 := by
  unfold State.doLayoutRelease
  split
  · split
    · exact .refl s
    · rename_i h
      exact State.completeLayout_keepsSound (by rw [Layout.valid, h]; rfl)
  · exact .refl s

theorem State.doFocusSet_keepsSound (t : Target) (args : List Byte) (s : State) : s.KeepsSound (s.doFocusSet t args).1 := by
  unfold State.doFocusSet
  split
  · exact .refl s
  · exact State.directed_keepsSound ..

theorem State.doWake_keepsSound (t : Target) (args : List Byte) (s : State) : s.KeepsSound (s.doWake t args).1 := by
  unfold State.doWake
  split
  · exact .refl s
  · exact .of_scene (State.wakeRequest_scene ..)

theorem State.doWindowShow_keepsSound (t : Target) (args : List Byte) (s : State) : s.KeepsSound (s.doWindowShow t args).1 := by
  unfold State.doWindowShow State.showWindow
  split
  · exact .refl s
  split
  · split
    · rename_i he
      dsimp only
      split
      · exact .refl s
      · exact .of_reshown _ _ rfl (State.modWindow_shownSound he)
    · exact .refl s
  · exact .refl s

theorem State.doNoticeClear_keepsSound (t : Target) (args : List Byte) (s : State) : s.KeepsSound (s.doNoticeClear t args).1 := by
  refine .of_scene ?_
  unfold State.doNoticeClear
  split
  · rfl
  · dsimp only
    split <;> rfl

theorem State.doNoticeSubscribe_keepsSound (t : Target) (args : List Byte) (s : State) :
    s.KeepsSound (s.doNoticeSubscribe t args).1 := by
  refine .of_scene ?_
  unfold State.doNoticeSubscribe
  repeat' split
  all_goals rfl

theorem State.finish_keepsSound (e : Execution) (a : Answer) (s : State) : s.KeepsSound (s.finish e a) := by
  refine .of_scene ?_
  unfold State.finish
  dsimp only
  split
  · rw [State.reply_scene]; rfl
  · rfl

theorem State.goOn_keepsSound (e : Execution) (s : State) : s.KeepsSound (s.goOn e) := by
  unfold State.goOn
  split
  · split
    · exact (State.takePart_keepsSound _ s).trans (.of_scene rfl)
    · exact State.finish_keepsSound ..
  · exact .of_scene rfl
  · exact State.finish_keepsSound ..

theorem State.controlPart_keepsSound (c : ControlCommand) {start : Target → ControlFrame → State → State}
    (h : ∀ (t : Target) (f : ControlFrame) (s : State), s.KeepsSound (start t f s)) (s : State) :
    s.KeepsSound (s.controlPart c start) := by
  rcases s.controlPart_cases c start with ⟨-, heq⟩ | ⟨e, -, -, heq⟩ | ⟨e, -, -, heq⟩ <;> rw [heq]
  · exact State.takeFrame_keepsSound _ h s
  · exact State.goOn_keepsSound e s
  · exact .refl s

theorem State.beginStatusRead_keepsSound (t : Target) (f : ControlFrame) (s : State) : s.KeepsSound (s.beginStatusRead t f) := by
  unfold State.beginStatusRead
  split
  · exact State.goOn_keepsSound ..
  · exact .of_scene (State.reply_scene ..)

/-! ## Every step -/

theorem running_keepsSound {f : State → State} {s t : State} (hr : running s f = .next t) (h : ∀ s : State, s.KeepsSound (f s)) :
    s.KeepsSound t := by
  unfold running at hr
  obtain rfl := Host.Outcome.next.inj hr
  split
  · exact .refl s
  · exact h s

theorem ite_keepsSound {c : Prop} [Decidable c] {s a b : State} (ha : s.KeepsSound a) (hb : s.KeepsSound b) :
    s.KeepsSound (if c then a else b) := by
  split
  · exact ha
  · exact hb

theorem exec_keepsSound {c : Instr} {s t : State} (h : exec c s = .next t) : s.KeepsSound t := by
  cases c with
  | powerOn cfgt lock =>
    obtain rfl := Host.Outcome.next.inj h
    have hscene : State.KeepsSound (State.powerOn cfgt lock) { State.powerOn cfgt lock with pending := s.pending } := .of_scene rfl
    have hl := State.powerOn_layoutSound cfgt lock
    exact ⟨fun _ => hscene.layout hl, fun _ => hscene.tables (State.powerOn_tablesInRange cfgt lock),
      fun _ _ => hscene.pointer hl (State.powerOn_pointerSound cfgt lock)⟩
  | hardReset =>
    obtain rfl := Host.Outcome.next.inj h
    exact s.hardReset_keepsSound
  | resetNRelease =>
    obtain rfl := Host.Outcome.next.inj h
    exact ite_keepsSound (.of_scene rfl) (.refl s)
  | cAttach p cls => exact running_keepsSound h fun _ => .of_scene rfl
  | cKeys p mods l =>
    unfold exec execCKeys at h
    exact running_keepsSound h fun x => ite_keepsSound (.of_scene rfl) (ite_keepsSound (x.arriveKeys_keepsSound p mods l) (.refl x))
  | cMotion p dx dy wheel buttons =>
    unfold exec execCMotion at h
    exact running_keepsSound h fun x => ite_keepsSound (x.arriveMotion_keepsSound p dx dy wheel buttons) (.refl x)
  | cDetach p => exact running_keepsSound h (State.detachConsole_keepsSound p)
  | consoleLaneLoss p => exact running_keepsSound h (State.detachConsole_keepsSound p)
  | mergeTakeEntry => exact running_keepsSound h State.mergeTake_keepsSound
  | tapDeadlineExpiry =>
    unfold exec execTapDeadlineExpiry at h
    exact running_keepsSound h fun x => ite_keepsSound (.of_scene rfl) (.refl x)
  | leaderDeadlineExpiry =>
    unfold exec execLeaderDeadlineExpiry at h
    exact running_keepsSound h fun x => ite_keepsSound (.of_scene rfl) (.refl x)
  | pAttach u m => exact running_keepsSound h (State.attachTarget_keepsSound u m)
  | pDetach u => exact running_keepsSound h (State.detachTarget_keepsSound u)
  | targetLaneLoss u => exact running_keepsSound h (State.detachTarget_keepsSound u)
  | pMode u m => exact running_keepsSound h (onAttached_keepsSound u (State.changeMode_keepsSound u m))
  | pCredit u n =>
    unfold exec execPCredit at h
    have hgrant := onAttached_keepsSound u (f := State.grantCredit u n.toNat) fun _ => .of_scene rfl
    exact running_keepsSound h fun x => ite_keepsSound (hgrant x) (.of_scene rfl)
  | pLeds u l =>
    unfold exec execPLeds at h
    have hreport := onAttached_keepsSound u (f := State.reportLeds u (l.setWidth 5)) fun _ => .of_scene rfl
    exact running_keepsSound h fun x => ite_keepsSound (hreport x) (.of_scene rfl)
  | pPower u v =>
    unfold exec execPPower at h
    exact running_keepsSound h fun x => ite_keepsSound (x.takePower_keepsSound u v) (.refl x)
  | pControl u tag command args =>
    unfold exec execPControl at h
    exact running_keepsSound h fun x =>
      ite_keepsSound (onAttached_keepsSound u (State.offerControl_keepsSound u ⟨tag, command, args⟩) x) (.of_scene rfl)
  | sendReport u => exact running_keepsSound h (State.sendReport_keepsSound u)
  | stallTimerExpiry u => exact running_keepsSound h (State.stallExpiry_keepsSound u)
  | wakeTimerExpiry u => exact running_keepsSound h (State.wakeExpiry_keepsSound u)
  | idleTimerExpiry => exact running_keepsSound h State.idleExpiry_keepsSound
  | signalArrival k =>
    unfold exec execSignalArrival at h
    exact running_keepsSound h fun x => .of_scene (State.modHead_scene (HeadState.arrival_measured _))
  | signalLoss k =>
    unfold exec execSignalLoss at h
    exact running_keepsSound h fun x => .of_scene (State.modHead_scene (HeadState.loss_measured _))
  | headFrameEnd k g pic => exact running_keepsSound h (State.headFrameEnd_keepsSound k g pic)
  | displayFrameStart d => exact running_keepsSound h (State.displayFrame_keepsSound d)
  | tableRead => exact running_keepsSound h (State.control_keepsSound _ State.doTableRead_keepsSound)
  | tableWrite => exact running_keepsSound h (State.control_keepsSound _ State.doTableWrite_keepsSound)
  | layoutHold => exact running_keepsSound h (State.control_keepsSound _ State.doLayoutHold_keepsSound)
  | layoutRelease => exact running_keepsSound h (State.control_keepsSound _ State.doLayoutRelease_keepsSound)
  | layoutAbandon => exact running_keepsSound h (State.control_keepsSound _ State.doLayoutAbandon_keepsSound)
  | focusSet => exact running_keepsSound h (State.control_keepsSound _ State.doFocusSet_keepsSound)
  | wake => exact running_keepsSound h (State.control_keepsSound _ State.doWake_keepsSound)
  | windowShow => exact running_keepsSound h (State.control_keepsSound _ State.doWindowShow_keepsSound)
  | statusRead => exact running_keepsSound h (State.controlPart_keepsSound _ State.beginStatusRead_keepsSound)
  | noticeRead => exact running_keepsSound h (State.control_keepsSound _ fun _ _ => .refl)
  | noticeClear => exact running_keepsSound h (State.control_keepsSound _ State.doNoticeClear_keepsSound)
  | noticeSubscribe => exact running_keepsSound h (State.control_keepsSound _ State.doNoticeSubscribe_keepsSound)
  | deskReset => exact running_keepsSound h (State.controlPart_keepsSound _ fun _ _ _ => .of_scene rfl)
  | badCommand => exact running_keepsSound h (State.control_keepsSound _ fun _ _ => .refl)
  | badConsoleFrame p bytes =>
    unfold exec execBadConsoleFrame at h
    exact running_keepsSound h fun x => ite_keepsSound (.of_scene rfl) (.refl x)
  | badTargetFrame u bytes =>
    unfold exec execBadTargetFrame at h
    exact running_keepsSound h fun x => ite_keepsSound (.of_scene rfl) (.refl x)

theorem step_keepsSound {s t : State} (h : step s = .next t) : s.KeepsSound t := by
  unfold step at h
  split at h
  · split at h
    · exact exec_keepsSound h
    · obtain rfl := Host.Outcome.next.inj h
      exact .refl s
  · rename_i rest _
    exact (.of_scene rfl : s.KeepsSound { s with pending := rest }).trans (exec_keepsSound h)

end Sys2Proof.Machine

/-- Settles O55: every step keeps the layout store and the tables sound, case by case over the commands (`step_keepsSound`). -/
theorem everyStepKeepsTheLayoutSound : Obligations.EveryStepKeepsTheLayoutSound :=
  ⟨fun _ _ hs h => (Sys2Proof.Machine.step_keepsSound h).layout hs, fun _ _ hs h => (Sys2Proof.Machine.step_keepsSound h).tables hs⟩

/-- Settles O59: what each command does to the focus record and the pointer keeps the point in a screen and held (`step_keepsSound`). -/
theorem everyStepKeepsThePointerOnAScreenOfTheFocus : Obligations.EveryStepKeepsThePointerOnAScreenOfTheFocus := by
  intro s t ⟨hlayout, hshown, hscreen, hholds⟩ h
  have hkeeps := Sys2Proof.Machine.step_keepsSound h
  obtain ⟨hshown', hscreen', hholds'⟩ := hkeeps.pointer hlayout ⟨hshown, hscreen, hholds⟩
  exact ⟨hkeeps.layout hlayout, hshown', hscreen', hholds'⟩
end

section
/-! PROOFS. One served control frame: what the engine's turn and its reply do; the layout hold (O43, O44). -/

namespace Sys2Proof.Machine

/-! ## One turn of the control engine (R163, R164) -/

/-- Of the numbers in order, `findSome?` answers with the first that has an answer. -/
theorem findSome?_finRange_eq_some {β : Type} {n : Nat} {g : Fin n → Option β} {i : Fin n} {b : β} (hi : g i = some b)
    (hlt : ∀ j < i, g j = none) : (List.finRange n).findSome? g = some b := by
  have hlen : i.val < (List.finRange n).length := by simp
  rw [List.findSome?_eq_some_iff]
  refine ⟨(List.finRange n).take i.val, i, (List.finRange n).drop (i.val + 1), ?_, hi, fun j hj => ?_⟩
  · conv_lhs => rw [← List.take_append_drop i.val (List.finRange n), List.drop_eq_getElem_cons hlen, List.getElem_finRange]
    rfl
  · obtain ⟨k, hk, rfl⟩ := List.mem_take_iff_getElem.1 hj
    exact hlt _ (by simpa [Fin.lt_def] using (Nat.lt_min.1 hk).1)

/-- The rotation after i takes the numbers after i in order. -/
theorem rotation_succWrap (i : Fin 8) : rotation (succWrap i) = (List.finRange 8).map fun k => i + 1 + k := by
  revert i
  decide

/-- In a turn of t, the engine takes t's frame. -/
theorem State.ControlTurn.nextFrame {s : State} {t : Target} {f : ControlFrame} {c : Option ControlCommand} (h : s.ControlTurn t f c) :
    s.nextFrame = some (t, f) := by
  obtain ⟨-, -, -, hinbox, -, n, rfl, hempty⟩ := h
  rw [State.nextFrame, rotation_succWrap, List.findSome?_map]
  exact findSome?_finRange_eq_some (i := n) (by simp only [Function.comp_apply, hinbox]; rfl)
    fun k hk => by simp only [Function.comp_apply, hempty k hk]; rfl

/-- A served frame's command is run with the rotation pointer at its sender. -/
theorem State.Serves.takeFrame {s : State} {t : Target} {f : ControlFrame} {c : ControlCommand} (h : s.Serves t f c)
    (run : Target → ControlFrame → State → State) : s.takeFrame (some c) run = run t f { s with ctrlLast := t } := by
  obtain ⟨hturn, hpermit⟩ := h
  have hnext := hturn.nextFrame
  obtain ⟨-, hfree, -, -, hcommand, -⟩ := hturn
  unfold State.takeFrame
  rw [hfree, hnext]
  simp only [hcommand, hpermit, if_true]
  rfl

/-- A served command executed as one event: its effects, then its answer. -/
theorem State.Serves.running_control {s : State} {t : Target} {f : ControlFrame} {c : ControlCommand} (h : s.Serves t f c)
    (body : Target → List Byte → State → State × Answer) {x : State} {a : Answer} (hbody : body t f.args { s with ctrlLast := t } = (x, a)) :
    running s (State.control (some c) body) = .next (x.reply t f a) := by
  rw [running, h.1.1, State.control, h.takeFrame, hbody]
  rfl

/-- A reply to an attached sender at the rotation pointer is all of what answering does by itself. -/
theorem State.reply_eq_answered {x : State} {t : Target} {f : ControlFrame} {a : Answer} (hx : x.targets[t].attached = true)
    (hlast : x.ctrlLast = t) : x.reply t f a = x.answered t f a.code a.data := by
  rw [State.reply, State.sendTo, if_pos hx, ← hlast]
  rfl

/-- A served command whose body gives x and an answer, with the sender's lane still up. -/
theorem State.Serves.control_answered {s : State} {t : Target} {f : ControlFrame} {c : ControlCommand} (h : s.Serves t f c)
    (body : Target → List Byte → State → State × Answer) {x : State} {code : ReplyCode} {data : List Byte}
    (hbody : body t f.args { s with ctrlLast := t } = (x, ⟨code, data⟩)) (hx : x.targets = s.targets) (hlast : x.ctrlLast = t) :
    running s (State.control (some c) body) = .next (x.answered t f code data) := by
  rw [h.running_control body hbody, State.reply_eq_answered (by rw [hx]; exact h.1.2.2.1) hlast]

/-- The same, of a body that only answers. -/
theorem State.Serves.control_refused {s : State} {t : Target} {f : ControlFrame} {c : ControlCommand} (h : s.Serves t f c)
    (body : Target → List Byte → State → State × Answer) {code : ReplyCode} {data : List Byte}
    (hbody : body t f.args { s with ctrlLast := t } = ({ s with ctrlLast := t }, ⟨code, data⟩)) :
    running s (State.control (some c) body) = .next (s.answered t f code data) :=
  h.control_answered body (x := { s with ctrlLast := t }) hbody rfl rfl

end Sys2Proof.Machine

open Sys2Proof Sys2Proof.Machine

/-- Settles O43, by the hold owner that the command finds. -/
theorem layoutHoldOpensKeepsOrIsBusy : Obligations.LayoutHoldOpensKeepsOrIsBusy := by
  intro t f s h
  refine ⟨fun ho => ?_, fun ho => ?_, fun o ho hne => ?_⟩
  · exact h.control_answered State.doLayoutHold (x := { s with ctrlLast := t, holdOwner := some t, edit := s.active })
      (by simp [State.doLayoutHold, ho, okWith]) rfl rfl
  · exact h.control_refused State.doLayoutHold (by simp [State.doLayoutHold, ho, okWith])
  · exact h.control_refused State.doLayoutHold (by simp [State.doLayoutHold, ho, hne])

/-- Settles O44, by whether the sender is the hold owner. -/
theorem layoutAbandonClosesTheHold : Obligations.LayoutAbandonClosesTheHold := by
  intro t f s h
  refine ⟨fun ho => ?_, fun ho => ?_⟩
  · exact h.control_answered State.doLayoutAbandon (x := { s with ctrlLast := t }.abandonHold) (code := .ok) (data := [])
      (by simp [State.doLayoutAbandon, ho, okWith]) rfl rfl
  · exact h.control_refused State.doLayoutAbandon (by simp [State.doLayoutAbandon, ho])
end

section
/-! PROOFS. TABLE_READ: entries and their records (O41). -/

namespace Sys2Proof.Machine

/-! ## Entries and their records (R168, 10.5) -/

theorem tableEntry_of_unknown {table : Nat} (index : Nat) (h : 8 < table) : tableEntry table index = .error 0xF0 := by
  obtain ⟨k, rfl⟩ := Nat.exists_eq_add_of_le h
  rw [show 8 + 1 + k = k + 9 by omega]
  rfl

/-- Each table with its number of entries (R168). -/
theorem tableEntry_of_known {table n : Nat}
    (h : (table, n) ∈ [(0, 3), (1, 6), (2, 8), (3, 12), (4, 8), (5, 4), (6, 24), (7, 8), (8, 1)]) (index : Nat) :
    (n ≤ index → tableEntry table index = .error 0xF1) ∧ (index < n → ∃ e, tableEntry table index = .ok e) := by
  simp only [List.mem_cons, Prod.mk.injEq, List.not_mem_nil, or_false] at h
  rcases h with ⟨rfl, rfl⟩ | ⟨rfl, rfl⟩ | ⟨rfl, rfl⟩ | ⟨rfl, rfl⟩ | ⟨rfl, rfl⟩ | ⟨rfl, rfl⟩ |
    ⟨rfl, rfl⟩ | ⟨rfl, rfl⟩ | ⟨rfl, rfl⟩
  all_goals exact ⟨fun hi => dif_neg (Nat.not_lt.2 hi), fun hi => ⟨_, dif_pos hi⟩⟩

/-- The widths of an entry's fields add up to its table's record length (10.5). -/
theorem recordLength_of_tableEntry {table index : Nat} {e : TableEntry} (h : tableEntry table index = .ok e) :
    (e.specs.map FieldSpec.width).sum = recordLength table := by
  unfold tableEntry at h
  dsimp only at h
  split at h
  case h_10 => cases h
  all_goals
    split at h
    · obtain rfl := Except.ok.inj h
      rfl
    · cases h

theorem joinFields_length {specs : List FieldSpec} :
    ∀ {values : List Nat}, values.length = specs.length → (joinFields specs values).length = (specs.map FieldSpec.width).sum := by
  induction specs with
  | nil => intro _ _; rfl
  | cons f fs ih =>
    intro values h
    obtain ⟨v, values, rfl⟩ := List.exists_cons_of_length_eq_add_one h
    simp [joinFields, beBytes_length, ih (by simpa using h)]

end Sys2Proof.Machine

open Sys2Proof Sys2Proof.Machine

/-- Settles O41, by what the two argument bytes name. -/
theorem tableReadReturnsTheRecord : Obligations.TableReadReturnsTheRecord := by
  intro t f table index s h hargs
  have hbad : ∀ item, tableEntry table.toNat index.toNat = .error item → exec .tableRead s = .next (s.answered t f .badValue [item]) :=
    fun item he => h.control_refused State.doTableRead (by simp [State.doTableRead, hargs, arg, he])
  refine ⟨fun e he => ⟨?_, ?_⟩, fun ht => hbad _ (tableEntry_of_unknown _ ht), fun n hn => ⟨fun hi => hbad _ ?_, ?_⟩⟩
  · exact h.control_refused State.doTableRead (by simp [State.doTableRead, hargs, arg, he, okWith]; rfl)
  · rw [joinFields_length (s.fieldsOf_length t e), recordLength_of_tableEntry he]
  · exact (tableEntry_of_known hn _).1 hi
  · exact (tableEntry_of_known hn _).2
end

section
/-! PROOFS. TABLE_WRITE: what is refused, what is written, and what reads back (O42). -/

namespace Sys2Proof.Machine

/-! ## Reading back what was written (R13, R180) -/

theorem firstRefusal_some {lock holder : Bool} {further : Nat → Bool} {specs : List FieldSpec} {code : ReplyCode} {k : Nat} :
    ∀ {n : Nat} {new old : List Nat}, firstRefusal lock holder further n specs new old = some (code, k) → n ≤ k ∧ k < n + specs.length := by
  induction specs with
  | nil => intro _ _ _ h; simp [firstRefusal] at h
  | cons f fs ih =>
    intro n new old h
    match new, old with
    | [], _ | _ :: _, [] => simp [firstRefusal] at h
    | _ :: _, _ :: _ =>
      unfold firstRefusal at h
      split at h
      · cases h
        simp
      · have := ih h
        simp only [List.length_cons]
        omega

/-- A list of n numbers, by its fields. -/
theorem eq_map_fieldAt {l : List Nat} {n : Nat} (h : l.length = n) : l = (List.range n).map (fieldAt l) := by
  refine List.ext_getElem (by simp [h]) fun k hk _ => ?_
  simp [fieldAt, hk]

theorem flagNum_flagAt {l : List Nat} {k : Nat} (h : between 0 1 (fieldAt l k) = true) : flagNum (flagAt l k) = fieldAt l k := by
  simp only [between, Nat.zero_le, decide_true, Bool.true_and, decide_eq_true_eq] at h
  unfold flagNum flagAt
  split <;> simp_all
  omega

theorem optNum_numOpt {n v : Nat} (h : optBelow n v = true) : optNum (numOpt n v) = v := by
  unfold numOpt
  split
  · rfl
  · simp_all [optBelow, optNum]

theorem numFin_val {n v : Nat} {hn : 0 < n} (h : v < n) : (numFin n hn v).val = v := by
  rw [numFin, dif_pos h]

theorem wakePolicyOf_code {v : Nat} (h : v ≤ 2) : (wakePolicyOf v).code = v := by
  interval_cases v <;> rfl

theorem hotkeyKindOf_code {v : Nat} (h : v ≤ 2) : (hotkeyKindOf v).code = v := by
  interval_cases v <;> rfl

theorem hotkeyActions_code {v : Nat} (h : v ≤ 8) : (hotkeyActions.getD v .leader).code = v := by
  interval_cases v <;> rfl

theorem triggerOf_code {v : Nat} (h : triggerOk v = true) : (triggerOf v).code = v := by
  simp only [triggerOk, between, Bool.or_eq_true, Bool.and_eq_true, decide_eq_true_eq] at h
  unfold triggerOf
  split
  · simp only [KeyItem.code, BitVec.toNat_ofNat]
    omega
  · simp only [KeyItem.code]
    rw [numFin_val (by omega)]
    omega

theorem byte_toNat {v : Nat} (h : v ≤ 255) : (BitVec.ofNat 8 v).toNat = v := by
  simp only [BitVec.toNat_ofNat]
  omega

section
variable {s : State} {t : Target} {new : List Nat}

/-- A flag of an accepted write is read back. -/
theorem State.accepted_flag {e : TableEntry} (h : s.refusal t e new = none) (hlen : new.length = e.specs.length) {k w : Nat} {c : FieldClass}
    (hk : e.specs[k]? = some ⟨w, c, between 0 1⟩) (hc : c ≠ .readOnly := by decide) : flagNum (flagAt new k) = fieldAt new k :=
  flagNum_flagAt (State.accepted_ok h hlen k hk hc).1

/-- A number or NONE of an accepted write is read back. -/
theorem State.accepted_opt {e : TableEntry} (h : s.refusal t e new = none) (hlen : new.length = e.specs.length) {k w n : Nat} {c : FieldClass}
    (hk : e.specs[k]? = some ⟨w, c, optBelow n⟩) (hc : c ≠ .readOnly := by decide) : optNum (numOpt n (fieldAt new k)) = fieldAt new k :=
  optNum_numOpt (State.accepted_ok h hlen k hk hc).1

theorem TierRec.fields_ofFields {i : Tier} (h : s.refusal t (.tiers i) new = none) (hlen : new.length = tierSpecs.length) :
    (TierRec.ofFields new).fields = new := by
  have hslot : ∀ q : Slot, [flagNum (flagAt new (2 + 3 * q.val)), fieldAt new (3 + 3 * q.val), optNum (numOpt 6 (fieldAt new (4 + 3 * q.val)))] =
      [fieldAt new (2 + 3 * q.val), fieldAt new (3 + 3 * q.val), fieldAt new (4 + 3 * q.val)] := fun q => by
    rw [State.accepted_flag h hlen (k := 2 + 3 * q.val) (w := 1) (c := .layout) (by fin_cases q <;> rfl),
      State.accepted_opt h hlen (k := 4 + 3 * q.val) (w := 1) (c := .layout) (by fin_cases q <;> rfl)]
  have hslots : (TierRec.ofFields new).slots.toList.flatMap (fun q => [flagNum q.used, q.endX, optNum q.display]) =
      (List.finRange 6).flatMap fun q => [fieldAt new (2 + 3 * q.val), fieldAt new (3 + 3 * q.val), fieldAt new (4 + 3 * q.val)] := by
    rw [← funext hslot]
    rfl
  rw [TierRec.fields, hslots, show (TierRec.ofFields new).used = flagAt new 0 from rfl, State.accepted_flag h hlen (k := 0) rfl]
  exact (eq_map_fieldAt hlen).symm

theorem DisplayRec.fields_ofFields {d : Display} (h : s.refusal t (.displays d) new = none) (hlen : new.length = displaySpecs.length) :
    (DisplayRec.ofFields new).fields (fieldAt new 5) = new := by
  simp only [DisplayRec.fields, DisplayRec.ofFields]
  rw [State.accepted_flag h hlen (k := 0) rfl, State.accepted_opt h hlen (k := 3) rfl]
  exact (eq_map_fieldAt hlen).symm

theorem WindowRec.fields_ofFields {w : Window} (h : s.refusal t (.windows w) new = none) (hlen : new.length = windowSpecs.length) :
    (WindowRec.ofFields new).fields = new := by
  have hdisplay := (State.accepted_between h hlen (k := 1) rfl).2
  have hsource := (State.accepted_between h hlen (k := 2) rfl).2
  simp only [WindowRec.fields, WindowRec.ofFields]
  rw [State.accepted_flag h hlen (k := 0) rfl, State.accepted_flag h hlen (k := 6) rfl, numFin_val (by omega), numFin_val (by omega)]
  exact (eq_map_fieldAt hlen).symm

/-- Of a HEADS entry the three layout-class fields are read back, and the head's own state follows them. -/
theorem HeadRec.fields_ofFields {k : Head} (h : s.refusal t (.heads k) new = none) (hlen : new.length = headSpecs.length)
    (r : HeadRec) (hs : HeadState) : (HeadRec.ofFields new).fields hs = new.take 3 ++ (r.fields hs).drop 3 := by
  simp only [HeadRec.fields, HeadRec.ofFields]
  rw [State.accepted_opt h hlen (k := 0) rfl]
  rw [eq_map_fieldAt hlen]
  rfl

theorem DeskSize.fields_ofFields {u : Target} (h : s.refusal t (.targets u) new = none) (hlen : new.length = targetSpecs.length)
    (size : DeskSize) (hw : fieldAt new 0 = size.dw) (hh : fieldAt new 1 = size.dh) :
    targetFields size (TargetPolicy.ofFields new) = new := by
  simp only [targetFields, TargetPolicy.ofFields]
  rw [wakePolicyOf_code (State.accepted_between h hlen (k := 2) rfl).2, State.accepted_flag h hlen (k := 4) rfl,
    State.accepted_flag h hlen (k := 5) rfl, ← hw, ← hh]
  exact (eq_map_fieldAt hlen).symm

theorem ConsoleEntry.fields_ofFields {p : Port} (h : s.refusal t (.consoles p) new = none) (hlen : new.length = consoleSpecs.length) :
    (ConsoleEntry.ofFields new).fields = new := by
  simp only [ConsoleEntry.fields, ConsoleEntry.ofFields]
  rw [State.accepted_opt h hlen (k := 0) rfl]
  exact (eq_map_fieldAt hlen).symm

theorem HotkeyEntry.fields_ofFields {n : Fin 24} (h : s.refusal t (.hotkeys n) new = none) (hlen : new.length = hotkeySpecs.length) :
    (HotkeyEntry.ofFields new).fields = new := by
  simp only [HotkeyEntry.fields, HotkeyEntry.ofFields]
  rw [hotkeyKindOf_code (State.accepted_between h hlen (k := 1) rfl).2, byte_toNat (State.accepted_between h hlen (k := 2) rfl).2,
    triggerOf_code (State.accepted_ok h hlen 4 rfl (by decide)).1, hotkeyActions_code (State.accepted_between h hlen (k := 5) rfl).2,
    State.accepted_flag h hlen (k := 0) rfl, State.accepted_flag h hlen (k := 3) rfl, State.accepted_flag h hlen (k := 7) rfl,
    State.accepted_flag h hlen (k := 8) rfl]
  exact (eq_map_fieldAt hlen).symm

theorem PresetEntry.fields_ofFields {n : Fin 8} (h : s.refusal t (.presets n) new = none) (hlen : new.length = presetSpecs.length) :
    (PresetEntry.ofFields new).fields = new := by
  simp only [PresetEntry.fields, PresetEntry.ofFields]
  rw [byte_toNat (State.accepted_between h hlen (k := 0) rfl).2, State.accepted_opt h hlen (k := 1) rfl]
  exact (eq_map_fieldAt hlen).symm

theorem DeskEntry.fields_ofFields (h : s.refusal t .desk new = none) (hlen : new.length = deskSpecs.length) :
    (DeskEntry.ofFields new).fields = new := by
  simp only [DeskEntry.fields, DeskEntry.ofFields]
  rw [State.accepted_flag (e := .desk) h hlen (k := 0) rfl, State.accepted_flag (e := .desk) h hlen (k := 7) rfl]
  exact (eq_map_fieldAt hlen).symm

/-- A sender that is not the hold owner writes only layout values that it sees already (R12). -/
theorem State.accepted_unheld {e : TableEntry} (h : s.refusal t e new = none) (hlen : new.length = e.specs.length)
    (hn : s.holdOwner ≠ some t) (k : Nat) {f : FieldSpec} (hk : e.specs[k]? = some f) (hf : f.cls = .layout) :
    fieldAt new k = fieldAt (s.fieldsOf t e) k :=
  (fieldCheck_layout hf (State.accepted_field h hlen hk)).resolve_left (by simpa using hn)

/-- Of a record of layout-class fields alone, such a sender writes what it sees. -/
theorem State.accepted_unheld_eq {e : TableEntry} (h : s.refusal t e new = none) (hlen : new.length = e.specs.length)
    (hn : s.holdOwner ≠ some t) (he : ∀ f ∈ e.specs, f.cls = .layout) : s.fieldsOf t e = new := by
  rw [eq_map_fieldAt (s.fieldsOf_length t e), eq_map_fieldAt hlen]
  refine List.map_congr_left fun k hk => ?_
  have hk' := List.mem_range.1 hk
  exact (State.accepted_unheld h hlen hn k (List.getElem?_eq_getElem hk') (he _ (List.getElem_mem hk'))).symm

end

/-! ## The write of an entry (R12, R15, R36, R156, R166) -/

@[simp] theorem State.editLayout_layoutFor (t : Target) (f : Layout → Layout) (s : State) :
    (s.editLayout t f).layoutFor t = if s.holdOwner = some t then f (s.layoutFor t) else s.layoutFor t := by
  unfold State.editLayout State.layoutFor
  split <;> simp_all

@[simp] theorem State.editLayout_holdOwner (t : Target) (f : Layout → Layout) (s : State) : (s.editLayout t f).holdOwner = s.holdOwner := by
  unfold State.editLayout
  split <;> rfl

theorem State.editLayout_eq (t : Target) (f : Layout → Layout) (s : State) : s.editLayout t f = { s with edit := (s.editLayout t f).edit } := by
  unfold State.editLayout
  split <;> rfl

/-- A write ends the hold when it clears the permit of the hold owner (R15, R166). -/
abbrev State.WriteEndsHold (s : State) (e : TableEntry) (new : List Nat) : Prop :=
  ∃ u : Target, e = .targets u ∧ s.holdOwner = some u ∧ fieldAt new 5 = 0

/-- The TARGETS write before R15 is applied. -/
def State.putTarget (sender u : Target) (size : DeskSize) (pol : TargetPolicy) (s : State) : State :=
  let s1 := s.editLayout sender fun L => { L with desktops := upd L.desktops u fun _ => size }
  { s1 with policies := upd s1.policies u fun _ => pol }

theorem State.writeTarget_eq (sender u : Target) (size : DeskSize) (pol : TargetPolicy) (s : State) : s.writeTarget sender u size pol =
    if pol.permit = false ∧ s.holdOwner = some u then (s.putTarget sender u size pol).abandonHold else s.putTarget sender u size pol := by
  have hown : (s.putTarget sender u size pol).holdOwner = s.holdOwner := State.editLayout_holdOwner ..
  unfold State.writeTarget State.abandonHoldOf
  show (if pol.permit then s.putTarget sender u size pol else
    if (s.putTarget sender u size pol).holdOwner = some u then (s.putTarget sender u size pol).abandonHold else s.putTarget sender u size pol) = _
  rw [hown]
  cases pol.permit <;> simp

theorem flagAt_eq_false {l : List Nat} {k : Nat} (h : between 0 1 (fieldAt l k) = true) : flagAt l k = false ↔ fieldAt l k = 0 := by
  simp only [between, Nat.zero_le, decide_true, Bool.true_and, decide_eq_true_eq] at h
  simp only [flagAt, decide_eq_false_iff_not]
  omega

section
variable {s : State} {t : Target} {new : List Nat} {e : TableEntry}

theorem State.writeEntry_targets {u : Target} (h : s.refusal t (.targets u) new = none) (hlen : new.length = targetSpecs.length) :
    (s.WriteEndsHold (.targets u) new → s.writeEntry t (.targets u) new =
      (s.putTarget t u (DeskSize.ofFields new) (TargetPolicy.ofFields new)).abandonHold) ∧
    (¬s.WriteEndsHold (.targets u) new → s.writeEntry t (.targets u) new =
      s.putTarget t u (DeskSize.ofFields new) (TargetPolicy.ofFields new)) := by
  have hpermit : (TargetPolicy.ofFields new).permit = false ↔ fieldAt new 5 = 0 := flagAt_eq_false (State.accepted_ok h hlen 5 rfl (by decide)).1
  have hiff : s.WriteEndsHold (.targets u) new ↔ (TargetPolicy.ofFields new).permit = false ∧ s.holdOwner = some u := by
    rw [hpermit]
    exact ⟨fun ⟨_, he, ho, hz⟩ => by cases he; exact ⟨hz, ho⟩, fun ⟨hz, ho⟩ => ⟨u, rfl, ho, hz⟩⟩
  have hw : s.writeEntry t (.targets u) new = s.writeTarget t u (DeskSize.ofFields new) (TargetPolicy.ofFields new) := rfl
  rw [hw, State.writeTarget_eq]
  exact ⟨fun he => if_pos (hiff.1 he), fun hne => if_neg fun hc => hne (hiff.2 hc)⟩

end

/-- An entry's field values where the sender sees the layout L. -/
def State.viewOf (s : State) (L : Layout) (e : TableEntry) : List Nat := { s with active := L, holdOwner := none }.fieldsOf 0 e

theorem State.fieldsOf_eq_viewOf (s : State) (t : Target) (e : TableEntry) : s.fieldsOf t e = s.viewOf (s.layoutFor t) e := by
  cases e <;> rfl

/-- What the sender sees after an edit of the layout. -/
theorem State.editLayout_fieldsOf (t : Target) (f : Layout → Layout) (s : State) (e : TableEntry) : (s.editLayout t f).fieldsOf t e =
    if s.holdOwner = some t then s.viewOf (f (s.layoutFor t)) e else s.fieldsOf t e := by
  rw [State.fieldsOf_eq_viewOf, State.editLayout_layoutFor, s.fieldsOf_eq_viewOf t e, State.editLayout_eq]
  split <;> rfl

/-- An edit that changes nothing of an entry's view is not seen at that entry. -/
theorem State.editLayout_fieldsOf_same {t : Target} {f : Layout → Layout} {s : State} {e : TableEntry}
    (h : ∀ L, s.viewOf (f L) e = s.viewOf L e) : (s.editLayout t f).fieldsOf t e = s.fieldsOf t e := by
  rw [State.editLayout_fieldsOf, h, ← State.fieldsOf_eq_viewOf]
  exact ite_self _

/-- A port's C_LEDS are sent to it alone, where it shows LEDs. -/
theorem filter_only_port (c : Port → Bool) (p : Port) : ((List.finRange 4).filter fun q => c q && decide (q = p)) = if c p then [p] else [] := by
  rw [← List.filter_filter, show (List.finRange 4).filter (fun q => decide (q = p)) = [p] by revert p; decide]
  cases h : c p <;> simp [h]

theorem State.sendLeds_only (p : Port) (s : State) : (s.sendLeds fun q => q = p) =
    { s with sent := s.sent ++ if s.showsLeds p then [s.ledFrame p] else [] } := by
  rw [State.sendLeds, filter_only_port]
  cases s.showsLeds p <;> rfl

/-- A write that leaves a CONSOLES entry's pin (R36). -/
theorem State.writeConsole_same_pin {p : Port} {e : ConsoleEntry} {s : State} (h : e.pin = s.pin p) :
    s.writeConsole p e = { s with consoles := upd s.consoles p fun _ => e } := if_pos h

/-- A write that changes a CONSOLES entry's pin (R36, R38, R78). -/
theorem State.writeConsole_new_pin {p : Port} {e : ConsoleEntry} {s : State} (h : e.pin ≠ s.pin p) :
    s.writeConsole p e = { s with
      consoles := upd s.consoles p fun _ => e
      ports := upd s.ports p fun q => { q with inChord := q.inChord && e.pin.isSome }
      sent := s.sent ++ if s.ports[p].attached && s.ports[p].cls = some .keyboard then
        [.leds p s.targets[e.pin.getD s.focus.target].leds] else [] } := by
  obtain ⟨pin, gainSlow, gainFast, threshold⟩ := e
  unfold State.writeConsole
  rw [if_neg h]
  cases pin with
  | none =>
    simp [State.sendLeds_only, State.showsLeds, State.ledFrame, State.ledTarget, State.pin, State.modPort]
  | some u =>
    simp [State.sendLeds_only, State.showsLeds, State.ledFrame, State.ledTarget, State.pin, upd_eq_self s.ports p (fun q => q) rfl]

theorem State.writeConsole_eq (p : Port) (e : ConsoleEntry) (s : State) : ∃ ports sent, s.writeConsole p e =
    { s with consoles := upd s.consoles p fun _ => e, ports := ports, sent := sent } := by
  by_cases h : e.pin = s.pin p
  · exact ⟨s.ports, s.sent, State.writeConsole_same_pin h⟩
  · exact ⟨_, _, State.writeConsole_new_pin h⟩

section
variable {s : State} {t : Target} {new : List Nat} {e : TableEntry}

/-- A write that does not end the hold is read at the entry written only. -/
theorem State.writeEntry_fieldsOf_other (h : s.refusal t e new = none) (hlen : new.length = e.specs.length)
    (hends : ¬s.WriteEndsHold e new) {e' : TableEntry} (hne : e' ≠ e) : (s.writeEntry t e new).fieldsOf t e' = s.fieldsOf t e' := by
  cases e with
  | tiers i =>
    refine State.editLayout_fieldsOf_same fun L => ?_
    cases e' with
    | tiers j => exact congrArg TierRec.fields (upd_get_ne _ _ _ _ fun hj => hne (hj ▸ rfl))
    | _ => rfl
  | displays d =>
    have hedit : (s.editLayout t fun L => { L with displays := upd L.displays d fun _ => DisplayRec.ofFields new }).fieldsOf t e' =
        s.fieldsOf t e' := by
      refine State.editLayout_fieldsOf_same fun L => ?_
      cases e' with
      | displays j => exact congrArg (DisplayRec.fields · s.budgets[j]) (upd_get_ne _ _ _ _ fun hj => hne (hj ▸ rfl))
      | _ => rfl
    rw [← hedit]
    cases e' with
    | displays j => exact congrArg (DisplayRec.fields _) (upd_get_ne _ _ _ _ fun hj => hne (hj ▸ rfl))
    | _ => rfl
  | windows w =>
    refine State.editLayout_fieldsOf_same fun L => ?_
    cases e' with
    | windows j => exact congrArg WindowRec.fields (upd_get_ne _ _ _ _ fun hj => hne (hj ▸ rfl))
    | _ => rfl
  | heads k =>
    refine State.editLayout_fieldsOf_same fun L => ?_
    cases e' with
    | heads j => exact congrArg (HeadRec.fields · s.heads[j]) (upd_get_ne _ _ _ _ fun hj => hne (hj ▸ rfl))
    | _ => rfl
  | targets u =>
    rw [(State.writeEntry_targets h hlen).2 hends]
    have hedit : (s.editLayout t fun L => { L with desktops := upd L.desktops u fun _ => DeskSize.ofFields new }).fieldsOf t e' =
        s.fieldsOf t e' := by
      refine State.editLayout_fieldsOf_same fun L => ?_
      cases e' with
      | targets j => exact congrArg (targetFields · s.policies[j]) (upd_get_ne _ _ _ _ fun hj => hne (hj ▸ rfl))
      | _ => rfl
    rw [← hedit]
    cases e' with
    | targets j => exact congrArg (targetFields _) (upd_get_ne _ _ _ _ fun hj => hne (hj ▸ rfl))
    | _ => rfl
  | consoles p =>
    obtain ⟨ports, sent, hw⟩ := State.writeConsole_eq p (ConsoleEntry.ofFields new) s
    show (s.writeConsole p (ConsoleEntry.ofFields new)).fieldsOf t e' = _
    rw [hw]
    cases e' with
    | consoles j => exact congrArg ConsoleEntry.fields (upd_get_ne _ _ _ _ fun hj => hne (hj ▸ rfl))
    | _ => rfl
  | hotkeys n =>
    cases e' with
    | hotkeys j => exact congrArg HotkeyEntry.fields (upd_get_ne _ _ _ _ fun hj => hne (hj ▸ rfl))
    | _ => rfl
  | presets n =>
    cases e' with
    | presets j => exact congrArg PresetEntry.fields (upd_get_ne _ _ _ _ fun hj => hne (hj ▸ rfl))
    | _ => rfl
  | desk =>
    cases e' with
    | desk => exact absurd rfl hne
    | _ => rfl

/-- What reads back of written fields: of HEADS, the three layout-class fields (R12). -/
def TableEntry.readBack (e : TableEntry) (old new : List Nat) : List Nat :=
  match e with
  | .heads _ => new.take 3 ++ old.drop 3
  | _ => new

/-- A write that does not end the hold is read back. -/
theorem State.writeEntry_fieldsOf_self (h : s.refusal t e new = none) (hlen : new.length = e.specs.length)
    (hends : ¬s.WriteEndsHold e new) : (s.writeEntry t e new).fieldsOf t e = e.readBack (s.fieldsOf t e) new := by
  cases e with
  | tiers i =>
    show (s.editLayout t fun L => { L with tiers := upd L.tiers i fun _ => TierRec.ofFields new }).fieldsOf t _ = _
    rw [State.editLayout_fieldsOf]
    split
    · exact (congrArg TierRec.fields (upd_get _ _ _)).trans (TierRec.fields_ofFields h hlen)
    · rename_i hn
      exact State.accepted_unheld_eq h hlen hn (show ∀ f ∈ tierSpecs, f.cls = .layout by decide)
  | displays d =>
    have hseen : (s.writeEntry t (.displays d) new).fieldsOf t (.displays d) =
        (if s.holdOwner = some t then DisplayRec.ofFields new else (s.layoutFor t).displays[d]).fields (fieldAt new 5) := by
      show DisplayRec.fields (State.layoutFor (State.editLayout ..) t).displays[d] (upd _ d _)[d] = _
      rw [State.editLayout_layoutFor, upd_get]
      split
      · rw [upd_get]
      · rfl
    rw [hseen]
    split
    · exact DisplayRec.fields_ofFields h hlen
    · rename_i hn
      have hold := State.accepted_unheld h hlen hn
      refine Eq.trans ?_ (eq_map_fieldAt hlen).symm
      show _ = [fieldAt new 0, fieldAt new 1, fieldAt new 2, fieldAt new 3, fieldAt new 4, fieldAt new 5]
      rw [hold 0 rfl rfl, hold 1 rfl rfl, hold 2 rfl rfl, hold 3 rfl rfl, hold 4 rfl rfl]
      rfl
  | windows w =>
    show (s.editLayout t fun L => { L with windows := upd L.windows w fun _ => WindowRec.ofFields new }).fieldsOf t _ = _
    rw [State.editLayout_fieldsOf]
    split
    · exact (congrArg WindowRec.fields (upd_get _ _ _)).trans (WindowRec.fields_ofFields h hlen)
    · rename_i hn
      exact State.accepted_unheld_eq h hlen hn (show ∀ f ∈ windowSpecs, f.cls = .layout by decide)
  | heads k =>
    show (s.editLayout t fun L => { L with heads := upd L.heads k fun _ => HeadRec.ofFields new }).fieldsOf t _ = _
    rw [State.editLayout_fieldsOf]
    split
    · exact (congrArg (HeadRec.fields · s.heads[k]) (upd_get _ _ _)).trans (HeadRec.fields_ofFields h hlen _ _)
    · rename_i hn
      have hold := State.accepted_unheld h hlen hn
      rw [TableEntry.readBack, eq_map_fieldAt hlen]
      show _ = [fieldAt new 0, fieldAt new 1, fieldAt new 2] ++ (s.fieldsOf t (.heads k)).drop 3
      rw [hold 0 rfl rfl, hold 1 rfl rfl, hold 2 rfl rfl]
      rfl
  | targets u =>
    rw [(State.writeEntry_targets h hlen).2 hends]
    have hseen : (s.putTarget t u (DeskSize.ofFields new) (TargetPolicy.ofFields new)).fieldsOf t (.targets u) = targetFields
        (if s.holdOwner = some t then DeskSize.ofFields new else (s.layoutFor t).desktops[u]) (TargetPolicy.ofFields new) := by
      show targetFields (State.layoutFor (State.editLayout ..) t).desktops[u] (upd _ u _)[u] = _
      rw [State.editLayout_layoutFor, upd_get]
      split
      · rw [upd_get]
      · rfl
    rw [hseen]
    split
    · exact DeskSize.fields_ofFields h hlen _ rfl rfl
    · rename_i hn
      exact DeskSize.fields_ofFields h hlen _ (State.accepted_unheld h hlen hn 0 rfl rfl) (State.accepted_unheld h hlen hn 1 rfl rfl)
  | consoles p =>
    obtain ⟨ports, sent, hw⟩ := State.writeConsole_eq p (ConsoleEntry.ofFields new) s
    show (s.writeConsole p (ConsoleEntry.ofFields new)).fieldsOf t _ = _
    rw [hw]
    exact (congrArg ConsoleEntry.fields (upd_get _ _ _)).trans (ConsoleEntry.fields_ofFields h hlen)
  | hotkeys n => exact (congrArg HotkeyEntry.fields (upd_get _ _ _)).trans (HotkeyEntry.fields_ofFields h hlen)
  | presets n => exact (congrArg PresetEntry.fields (upd_get _ _ _)).trans (PresetEntry.fields_ofFields h hlen)
  | desk => exact DeskEntry.fields_ofFields h hlen

/-- The policy fields of a TARGETS entry read back even when the write ends the hold. -/
theorem State.writeEntry_policy_fields {u : Target} (h : s.refusal t (.targets u) new = none) (hlen : new.length = targetSpecs.length) :
    ((s.writeEntry t (.targets u) new).fieldsOf t (.targets u)).drop 2 = new.drop 2 := by
  obtain ⟨hended, hkept⟩ := State.writeEntry_targets h hlen
  have hpolicy : (s.writeEntry t (.targets u) new).policies[u] = TargetPolicy.ofFields new := by
    by_cases hends : s.WriteEndsHold (.targets u) new
    · rw [hended hends]; exact upd_get ..
    · rw [hkept hends]; exact upd_get ..
  rw [State.fieldsOf, hpolicy]
  exact congrArg (List.drop 2) (a₁ := targetFields ⟨fieldAt new 0, fieldAt new 1⟩ (TargetPolicy.ofFields new))
    (DeskSize.fields_ofFields h hlen _ rfl rfl)

/-- A write that ends the hold leaves the edit layout equal to the active one (R15). -/
theorem State.writeEntry_ends (h : s.refusal t e new = none) (hlen : new.length = e.specs.length) (hends : s.WriteEndsHold e new) :
    (s.writeEntry t e new).holdOwner = none ∧ (s.writeEntry t e new).edit = s.active := by
  obtain ⟨u, rfl, ho, hz⟩ := hends
  rw [(State.writeEntry_targets h hlen).1 ⟨u, rfl, ho, hz⟩]
  exact ⟨rfl, by rw [State.abandonHold_edit, State.putTarget, State.editLayout_eq]⟩

theorem State.writeEntry_holdOwner (h : s.refusal t e new = none) (hlen : new.length = e.specs.length) (hends : ¬s.WriteEndsHold e new) :
    (s.writeEntry t e new).holdOwner = s.holdOwner := by
  cases e with
  | tiers | windows | heads | displays => exact State.editLayout_holdOwner ..
  | targets u => rw [(State.writeEntry_targets h hlen).2 hends]; exact State.editLayout_holdOwner ..
  | consoles p =>
    obtain ⟨ports, sent, hw⟩ := State.writeConsole_eq p (ConsoleEntry.ofFields new) s
    rw [State.writeEntry, hw]
  | hotkeys | presets | desk => rfl

/-- s1 differs from s in what a TABLE_WRITE may touch only. -/
abbrev State.WriteOnly (s s1 : State) : Prop :=
  s1 = { s with edit := s1.edit, holdOwner := s1.holdOwner, budgets := s1.budgets, policies := s1.policies, consoles := s1.consoles,
                hotkeys := s1.hotkeys, presets := s1.presets, desk := s1.desk, idleTimer := s1.idleTimer, ports := s1.ports,
                sent := s1.sent }

/-- What the writes of the layout tables and of TARGETS leave alone. -/
theorem State.writeTarget_eq_edit (sender u : Target) (size : DeskSize) (pol : TargetPolicy) (s : State) : ∃ edit holdOwner policies,
    s.writeTarget sender u size pol = { s with edit := edit, holdOwner := holdOwner, policies := policies } := by
  rw [State.writeTarget_eq, State.putTarget, State.editLayout_eq]
  split <;> exact ⟨_, _, _, rfl⟩

theorem State.writeEntry_frame (t : Target) (e : TableEntry) (new : List Nat) (s : State) :
    s.WriteOnly (s.writeEntry t e new) ∧
    ((∀ p : Port, e ≠ .consoles p) → (s.writeEntry t e new).ports = s.ports ∧ (s.writeEntry t e new).sent = s.sent) ∧
    (e ≠ .desk → (s.writeEntry t e new).idleTimer = s.idleTimer) := by
  have hedit : ∀ f, s.WriteOnly (s.editLayout t f) ∧ ((∀ p : Port, e ≠ .consoles p) → (s.editLayout t f).ports = s.ports ∧
      (s.editLayout t f).sent = s.sent) ∧ (e ≠ .desk → (s.editLayout t f).idleTimer = s.idleTimer) := fun f => by
    rw [State.editLayout_eq]
    exact ⟨rfl, fun _ => ⟨rfl, rfl⟩, fun _ => rfl⟩
  cases e with
  | tiers | windows | heads => rw [State.writeEntry]; exact hedit _
  | displays d =>
    rw [State.writeEntry, State.editLayout_eq]
    exact ⟨rfl, fun _ => ⟨rfl, rfl⟩, fun _ => rfl⟩
  | targets u =>
    obtain ⟨edit, holdOwner, policies, hw⟩ := State.writeTarget_eq_edit t u (DeskSize.ofFields new) (TargetPolicy.ofFields new) s
    rw [State.writeEntry, hw]
    exact ⟨rfl, fun _ => ⟨rfl, rfl⟩, fun _ => rfl⟩
  | consoles p =>
    obtain ⟨ports, sent, hw⟩ := State.writeConsole_eq p (ConsoleEntry.ofFields new) s
    rw [State.writeEntry, hw]
    exact ⟨rfl, fun hp => absurd rfl (hp p), fun _ => rfl⟩
  | hotkeys | presets => exact ⟨rfl, fun _ => ⟨rfl, rfl⟩, fun _ => rfl⟩
  | desk => exact ⟨rfl, fun _ => ⟨rfl, rfl⟩, fun hd => absurd rfl hd⟩

end
end Sys2Proof.Machine

open Sys2Proof Sys2Proof.Machine

/-- Settles O42: the first refused field refuses the whole write, and each table's field values survive being stored as a record
(`writeEntry_fieldsOf_self`, `writeEntry_fieldsOf_other`). -/
theorem tableWriteIsRefusedWholeOrReadBack : Obligations.TableWriteIsRefusedWholeOrReadBack := by
  intro t f table index bytes s h hargs
  have hbad : ∀ item, tableEntry table.toNat index.toNat = .error item → exec .tableWrite s = .next (s.answered t f .badValue [item]) :=
    fun item he => h.control_refused State.doTableWrite (by simp [State.doTableWrite, hargs, arg, he])
  refine ⟨fun ht => hbad _ (tableEntry_of_unknown _ ht), fun n hn hi => hbad _ ((tableEntry_of_known hn _).1 hi), fun e he => ?_⟩
  dsimp only
  have hlen := splitFields_length e.specs bytes
  have hbody : State.doTableWrite t f.args { s with ctrlLast := t } = match s.refusal t e (splitFields e.specs bytes) with
      | some (code, n) => ({ s with ctrlLast := t }, ⟨code, [byteOf n]⟩)
      | none => ({ s with ctrlLast := t }.writeEntry t e (splitFields e.specs bytes), okWith []) := by
    simp [State.doTableWrite, hargs, arg, he]
    rfl
  refine ⟨fun code n hr => ?_, fun hr => ?_⟩
  · obtain ⟨hlow, hhigh⟩ := firstRefusal_some hr
    exact ⟨h.control_refused State.doTableWrite (by rw [hbody, hr]; rfl), hlow, by omega⟩
  · have hr0 : { s with ctrlLast := t }.refusal t e (splitFields e.specs bytes) = none := hr
    obtain ⟨hframe, hquiet, htimer⟩ := State.writeEntry_frame t e (splitFields e.specs bytes) { s with ctrlLast := t }
    rw [hr] at hbody
    refine ⟨_, h.control_answered State.doTableWrite hbody (congrArg State.targets hframe :) (congrArg State.ctrlLast hframe :), hframe,
      ⟨State.writeEntry_ends hr0 hlen, fun hends => ⟨State.writeEntry_holdOwner hr0 hlen hends,
        fun e' hne => State.writeEntry_fieldsOf_other hr0 hlen hends hne,
        (State.writeEntry_fieldsOf_self hr0 hlen hends).trans (by cases e <;> rfl)⟩⟩, ?_, ?_, hquiet, ?_, htimer⟩
    · rintro u rfl
      exact State.writeEntry_policy_fields hr0 hlen
    · rintro p rfl
      refine ⟨fun hpin => ?_, fun hpin => ?_⟩
      · have hw := State.writeConsole_same_pin (e := ConsoleEntry.ofFields (splitFields _ bytes)) (s := { s with ctrlLast := t }) hpin
        exact ⟨(congrArg State.ports hw :), (congrArg State.sent hw :)⟩
      · have hw := State.writeConsole_new_pin (e := ConsoleEntry.ofFields (splitFields _ bytes)) (s := { s with ctrlLast := t }) hpin
        exact ⟨(congrArg State.ports hw :), (congrArg State.sent hw :)⟩
    · rintro rfl
      rfl
end

section
/-! PROOFS. Teardown (O23). -/

namespace Sys2Proof.Machine

/-! ## Teardown (R104) -/

theorem State.abandonHoldOf_eq (t : Target) (s : State) : s.abandonHoldOf t = { s with
    edit := if s.holdOwner = some t then s.active else s.edit
    holdOwner := if s.holdOwner = some t then none else s.holdOwner } := by
  unfold State.abandonHoldOf
  split <;> rfl

/-- C_LEDS to the ports showing t's LEDs, all with t's state (R37, R38). -/
theorem State.ledsOfTarget_eq (t : Target) (s : State) : s.ledsOfTarget t = { s with
    sent := s.sent ++ ((List.finRange 4).filter fun p => s.showsLeds p && s.ledTarget p = t).map (fun p => .leds p s.targets[t].leds) } := by
  have hframes : ∀ p ∈ (List.finRange 4).filter fun p => s.showsLeds p && s.ledTarget p = t, s.ledFrame p = .leds p s.targets[t].leds := by
    intro p hp
    have ht : s.ledTarget p = t := by simpa using (Bool.and_eq_true_iff.1 (List.mem_filter.1 hp).2).2
    simp only [State.ledFrame, ht]
  rw [State.ledsOfTarget, State.sendLeds, List.map_congr_left hframes]

theorem State.teardown_eq (t : Target) (s : State) : s.teardown t = { s with
    ports := (s.clearInput t).ports
    keyStates := upd s.keyStates t KeyState.clear
    targets := upd s.targets t TargetPort.tornDown
    edit := if s.holdOwner = some t then s.active else s.edit
    holdOwner := if s.holdOwner = some t then none else s.holdOwner
    executing := s.executing.map (Execution.afterTeardown t)
    sent := s.sent ++ ((List.finRange 4).filter fun p => s.ports[p].attached && s.ports[p].cls = some .keyboard &&
      (s.consoles[p].pin).getD s.focus.target = t).map (fun p => .leds p 0) } := by
  have hshows : ∀ p : Port, (s.clearInput t).showsLeds p = (s.ports[p].attached && s.ports[p].cls = some .keyboard) := fun p => by
    simp only [State.showsLeds, State.clearInput, updAll_get]
    rfl
  rw [State.teardown, State.abandonHoldOf_eq, State.ledsOfTarget_eq]
  simp only [← hshows, State.dropReply_targets, State.modTarget_targets, upd_get]
  rfl

end Sys2Proof.Machine

open Sys2Proof Sys2Proof.Machine

/-- Settles O23, from what a teardown is as a whole (`teardown_eq`). -/
theorem teardownClearsTheTargetPort : Obligations.TeardownClearsTheTargetPort := by
  intro t s hreset hattached
  have hdetach : running s (State.detachTarget t) = .next (s.teardown t) := by
    simp only [running, hreset, State.detachTarget, hattached]
    rfl
  refine ⟨s.teardown t, hdetach, hdetach, ?_⟩
  rw [State.teardown_eq]
  have hport : ∀ p : Port, (s.clearInput t).ports[p] =
      s.ports[p].suppressAll (s.keyStates[t].keysOf p) (s.keyStates[t].modsOf p) (s.keyStates[t].buttonsOf p) := fun p => updAll_get ..
  refine ⟨rfl, rfl, fun p i => ?_, fun p => ?_, fun ho => ?_, fun ho => ?_, rfl, rfl, rfl⟩
  · rw [hport, ConsolePort.suppressAll_suppressed, KeyState.among_held]
  · rw [hport]; rfl
  · exact ⟨if_pos ho, if_pos ho⟩
  · exact ⟨if_neg ho, if_neg ho⟩
end

section
/-! PROOFS. POWER_ON, HARD_RESET and the state after reset (O3, O4, O54). -/

namespace Sys2Proof.Machine

/-! ## The state right after power-on (R176) -/

section
variable (cfgt : Target) (lock : Bool)

theorem State.powerOn_ports (p : Port) : (State.powerOn cfgt lock).ports[p] = ConsolePort.initial := by simp [State.powerOn]

theorem State.powerOn_keyStates (u : Target) : (State.powerOn cfgt lock).keyStates[u] = KeyState.initial := by simp [State.powerOn]

theorem State.powerOn_targets (u : Target) : (State.powerOn cfgt lock).targets[u] = TargetPort.initial := by simp [State.powerOn]

theorem State.powerOn_policies (u : Target) : (State.powerOn cfgt lock).policies[u] = ⟨.onFocus, 1, true, decide (u = cfgt)⟩ := by
  simp [State.powerOn, powerOnPolicies]

theorem State.powerOn_hotkeys (n : Fin 24) : (State.powerOn cfgt lock).hotkeys[n] =
    if n.val = 0 then ⟨true, .tap2, 0, false, .mod 4, .leader, 0, false, false⟩
    else if n.val ≤ 8 then ⟨true, .follow, 0, false, .key (BitVec.ofNat 8 (29 + n.val)), .focus, n.val - 1, false, false⟩
    else ⟨false, .chord, 0, false, .key 1, .focusNext, 0, false, false⟩ := by
  simp [State.powerOn, powerOnHotkeys]

theorem State.powerOn_bounded : (State.powerOn cfgt lock).Bounded := by
  refine ⟨fun p => ?_, fun u => ?_⟩
  · rw [State.powerOn_ports]
    exact ⟨by decide, by decide, by decide, fun e he => nomatch he⟩
  · rw [State.powerOn_targets]
    decide

theorem ConsolePort.initial_holding (i : Item) : ConsolePort.initial.holding i = false := by
  cases i <;> simp [ConsolePort.holding, ConsolePort.initial, has]

theorem ConsolePort.initial_suppressed (i : Item) : ConsolePort.initial.suppressed i = false := by
  cases i <;> simp [ConsolePort.suppressed, ConsolePort.initial, has]

/-- With nothing held and nothing booked, the account is exact. -/
theorem State.powerOn_accountExact : (State.powerOn cfgt lock).AccountExact := by
  intro p i
  have hnone : ∀ u : Target, (State.powerOn cfgt lock).keyStates[u].holds p i = false := fun u => by
    rw [State.powerOn_keyStates]
    exact KeyState.clear_holds p KeyState.initial i
  simp only [State.accounts, State.powerOn_ports, hnone, ConsolePort.initial_holding, ConsolePort.initial_suppressed]
  rfl

end

/-! ## Hard reset (R49, R79, R176) -/

/-- With no window shown, a point of a screen has that screen's region (R8). -/
theorem State.regionAt_of_none_shown {s : State} (h : ∀ w : Window, s.windows[w].shown = false) {x y : Nat} {p : Place}
    (hl : s.active.lookup x y = some p) : s.regionAt x y = some (.screen p.display) := by
  have hnone : (topWindow fun w => s.active.windows[w].display = p.display && s.windowAt x y w) = none := by
    rw [topWindow, List.find?_eq_none]
    intro w _
    simp only [State.windowAt, State.windowDrawn, h w, Bool.and_false, Bool.false_and]
    decide
  rw [State.regionAt, hl]
  simp only [Option.map_some, hnone]

theorem State.resetFocus_eq {s : State} {p : Place} {o : Target} (hfirst : s.active.firstScreen = some p)
    (ho : s.active.displayOwner p.display = some o)
    (hregion : s.regionAt (s.active.screen p).centre.1 (s.active.screen p).centre.2 = some (.screen p.display)) :
    s.resetFocus = { s with
      glide := Glide.at (s.active.screen p).centre.1 (s.active.screen p).centre.2
      focus := ⟨o, .screen p.display, .reset, false, false, []⟩ } := by
  simp only [State.resetFocus, hfirst, ho, hregion, Option.getD_some]

/-- From a sound layout, a hard reset has a first screen with an owner to put focus and pointer at. -/
theorem State.hardReset_of_valid {s : State} (hv : s.active.valid = true) (hr : s.active.InRange) : ∃ (p : Place) (o : Target),
    s.active.firstScreen = some p ∧ s.active.displayOwner p.display = some o ∧ s.hardReset = { s.blocksReset with
      glide := Glide.at (s.active.screen p).centre.1 (s.active.screen p).centre.2
      focus := ⟨o, .screen p.display, .reset, false, false, []⟩ } := by
  obtain ⟨p, hmem, hfirst⟩ := Layout.firstScreen_isSome hv
  obtain ⟨o, ho⟩ := Layout.owned hv hmem
  obtain ⟨hw, hh⟩ := Layout.screen_pos hr p
  have hlookup := Layout.lookup_of_contains hv hmem (Rect.contains_centre hw hh)
  exact ⟨p, o, hfirst, ho, (State.hardReset_eq s).trans
    (State.resetFocus_eq hfirst ho (State.regionAt_of_none_shown s.blocksReset_shown hlookup))⟩

end Sys2Proof.Machine

open Sys2Proof Sys2Proof.Machine

/-- Settles O54, block by block of the power-on state. -/
theorem resetStateIsSound : Obligations.ResetStateIsSound := by
  have hpointer := State.powerOn_pointerSound Config.resetCfgt Config.resetLock
  refine ⟨State.powerOn_tablesInRange .., State.powerOn_layoutSound .., State.powerOn_bounded .., fun u => ?_, ?_, fun u => ?_,
    hpointer.screen, hpointer.holds, State.powerOn_accountExact Config.resetCfgt Config.resetLock, hpointer.shown,
    ⟨Config.resetCfgt, ?_⟩, fun _ he => nomatch he⟩
  · rw [State.reset, State.powerOn_targets]
    decide
  · show Focus.initial.history.length ≤ _ ∧ Focus.initial.history.Nodup ∧ Focus.initial.target ∉ Focus.initial.history
    decide
  · rw [State.reset, State.powerOn_keyStates]
    decide
  · rw [State.reset, State.powerOn_policies]
    rfl

/-- Settles O3, field by field of the power-on state. -/
theorem powerOnGivesEveryBlockItsPowerOnState : Obligations.PowerOnGivesEveryBlockItsPowerOnState := by
  intro cfgt lock s
  refine ⟨_, rfl, rfl, rfl, rfl, rfl, rfl, rfl, rfl, rfl, fun d => ?_, State.powerOn_policies cfgt lock, fun p => ?_, fun n => ?_, rfl,
    State.powerOn_hotkeys cfgt lock 0, fun n h1 h8 => ?_, fun n h9 => ?_, State.powerOn_ports cfgt lock, rfl, rfl,
    State.powerOn_keyStates cfgt lock, rfl, rfl, rfl, rfl, rfl, fun p => ?_, State.powerOn_targets cfgt lock, rfl, rfl,
    fun h => ?_, fun d => ?_, fun w => ?_, rfl, rfl, fun k => ?_, rfl⟩
  · simp [State.powerOn, powerOnBudgets]
  · simp [State.powerOn, powerOnConsoles]
  · simp [State.powerOn, powerOnPresets]
  · exact (State.powerOn_hotkeys cfgt lock n).trans (by rw [if_neg (by omega), if_pos h8])
  · exact (State.powerOn_hotkeys cfgt lock n).trans (by rw [if_neg (by omega), if_neg (by omega)])
  · simp [State.powerOn, Glide.at]
  · simp [State.powerOn]
  · simp [State.powerOn]
  · simp [State.powerOn]
  · simp [State.powerOn]

/-- Settles O4: a hard reset is the reset of every block and then of the focus unit (`hardReset_eq`), and a sound layout has a first screen
with an owner. -/
theorem hardResetKeepsTablesAndResetsBlocks : Obligations.HardResetKeepsTablesAndResetsBlocks := by
  intro s ⟨hv, hr, _, _⟩
  obtain ⟨p, o, hfirst, ho, hreset⟩ := State.hardReset_of_valid hv hr
  refine ⟨_, p, o, congrArg Host.Outcome.next hreset, hfirst, ho, ⟨rfl, rfl, rfl, rfl, rfl, rfl, rfl, rfl, rfl⟩, rfl, rfl, rfl, rfl, rfl,
    fun q => ?_, rfl, rfl, fun u => ?_, fun u => ?_, rfl, rfl, fun h => ?_, fun d => ?_, fun w => ?_, rfl, rfl, fun k => ?_, rfl, rfl, rfl,
    rfl, rfl, rfl, fun q => ?_⟩
  all_goals simp [State.blocksReset, Glide.at]
end

section
/-! SUPPORT. The mismatch check, and what a switch leaves of focus record and glide unit (R53, R60, R128). -/

namespace Sys2Proof.Machine

/-! ## The mismatch check (R128) -/

/-- The raises of GEOMETRY_MISMATCH for displays l, in their order. -/
theorem raiseMismatch_spec (l : List Display) (s : State) : ∃ notices sent,
    l.foldl (fun acc d => acc.raise .geometryMismatch (displaySubject d)) s = { s with notices := notices, sent := sent } ∧
    s.sent <+: sent ∧ (∀ k : NoticeKind, k ≠ .geometryMismatch → notices[k.index] = s.subjects k) ∧
    ∀ d : Display, (d ∈ l ∨ has (s.subjects .geometryMismatch) (displaySubject d) = true) →
      has notices[NoticeKind.geometryMismatch.index] (displaySubject d) = true := by
  induction l generalizing s with
  | nil => exact ⟨s.notices, s.sent, rfl, List.prefix_rfl, fun _ _ => rfl, fun d hd => hd.resolve_left (by simp)⟩
  | cons a l ih =>
    obtain ⟨notices, sent, heq, hsent, hother, hset⟩ := ih (s.raise .geometryMismatch (displaySubject a))
    refine ⟨notices, sent, heq, (List.prefix_append ..).trans hsent, fun k hk => ?_, fun d hd => hset d ?_⟩
    · rw [hother k hk, State.raise_subjects, if_neg hk]
    · rw [State.raise_subjects, if_pos rfl, has_adjoin, Bool.or_eq_true]
      rcases hd with hd | hd
      · rcases List.mem_cons.1 hd with rfl | hd
        · exact .inr (.inr (decide_eq_true rfl))
        · exact .inl hd
      · exact .inr (.inl hd)

/-- The check of every display raises for those that mismatch, and changes nothing else. -/
theorem State.checkMismatch_all_spec (s : State) : ∃ notices sent,
    (s.checkMismatch fun _ => true) = { s with notices := notices, sent := sent } ∧ s.sent <+: sent ∧
    (∀ k : NoticeKind, k ≠ .geometryMismatch → notices[k.index] = s.subjects k) ∧
    ∀ d : Display, s.mismatches d = true → has notices[NoticeKind.geometryMismatch.index] (displaySubject d) = true := by
  obtain ⟨notices, sent, heq, hsent, hother, hset⟩ := raiseMismatch_spec ((List.finRange 6).filter fun d => true && s.mismatches d) s
  exact ⟨notices, sent, heq, hsent, hother, fun d hd => hset d (.inl (by simpa using hd))⟩

/-! ## Focus record and glide unit across a switch -/

/-- The focus record and the glide unit of a state. -/
def State.pointing (s : State) : Focus × Glide := (s.focus, s.glide)

@[simp] theorem State.sendTo_pointing (t : Target) (f : OutFrame) (s : State) : (s.sendTo t f).pointing = s.pointing := by
  unfold State.sendTo; split <;> rfl

@[simp] theorem State.modTarget_pointing (t : Target) (f : TargetPort → TargetPort) (s : State) : (s.modTarget t f).pointing = s.pointing := rfl

@[simp] theorem State.requestSync_pointing (t : Target) (s : State) : (s.requestSync t).pointing = s.pointing := rfl

@[simp] theorem State.setLast_pointing (t : Target) (q : Nat × Nat) (s : State) : (s.setLast t q).pointing = s.pointing := rfl

@[simp] theorem State.offerReport_pointing (t : Target) (r : Report) (s : State) : (s.offerReport t r).pointing = s.pointing := by
  unfold State.offerReport
  split
  · show (ite .. : State).pointing = _
    split <;> rfl
  all_goals rfl

@[simp] theorem State.announceView_pointing (v : ModSet × List Key) (t : Target) (s : State) : (s.announceView v t).pointing = s.pointing := by
  unfold State.announceView; split <;> simp

@[simp] theorem State.buttonReport_pointing (t : Target) (s : State) : (s.buttonReport t).pointing = s.pointing := by
  simp [State.buttonReport]

@[simp] theorem State.wakeRequest_pointing (t : Target) (s : State) : (s.wakeRequest t).pointing = s.pointing := by
  unfold State.wakeRequest; split <;> simp

@[simp] theorem State.pointerReport_pointing (t : Target) (q : Nat × Nat) (w : Int) (c e : Bool) (s : State) :
    (s.pointerReport t q w c e).pointing = s.pointing := by
  unfold State.pointerReport
  dsimp only
  repeat' split
  all_goals simp

theorem State.leave_pointing (a : Target) (s : State) : (s.leave a).pointing = s.pointing := by
  have hview : ((s.modKeys a (KeyState.dropPorts s.following)).announceView (s.view a) a).pointing = s.pointing := by
    rw [State.announceView_pointing]; rfl
  unfold State.leave
  dsimp only
  split
  · exact hview
  · rw [State.buttonReport_pointing, hview]

theorem State.carryOver_pointing (s before : State) (a b : Target) (m : ModSet) : (s.carryOver before a b m).pointing = s.pointing := by
  unfold State.carryOver
  rw [State.announceView_pointing]
  rfl

theorem State.arrive_pointing (a b : Target) (c : Cause) (r : Region) (s : State) : (s.arrive a b c r).pointing =
    ({ s.focus with target := b, cause := c, region := r, history := pushHistory a b s.focus.history },
      { s.glide with pressure := none }) := by
  unfold State.arrive
  dsimp only
  split
  · rw [State.wakeRequest_pointing]; rfl
  · rfl

theorem State.entry_pointing (b : Target) (s : State) : (s.entry b).pointing = s.pointing := by
  unfold State.entry; split <;> simp

/-- A switch to another target records it and clears the accumulator; lock, detached flag and both pointers stay (R53). -/
theorem State.switch_pointing {b : Target} (c : Cause) (m : ModSet) (r : Region) {s : State} (hb : b ≠ s.focus.target) :
    (s.switch b c m r).pointing =
      ({ s.focus with target := b, cause := c, region := r, history := pushHistory s.focus.target b s.focus.history },
        { s.glide with pressure := none }) := by
  have hbefore := (State.carryOver_pointing (s.leave s.focus.target) s s.focus.target b m).trans (s.leave_pointing _)
  obtain ⟨hfocus, hglide⟩ := Prod.mk.inj hbefore
  rw [State.switch, if_neg hb, State.entry_pointing, State.switchTo, if_neg hb, State.arrive_pointing, hfocus, hglide]

/-- A re-evaluation leaves lock, detached flag and both pointers; the accumulator stays or is cleared (R60). -/
theorem State.reevaluate_pointing (c : Cause) (m : ModSet) (s : State) : (s.reevaluate c m).focus.lock = s.focus.lock ∧
    ((s.reevaluate c m).glide = s.glide ∨ (s.reevaluate c m).glide = { s.glide with pressure := none }) := by
  unfold State.reevaluate
  dsimp only
  split
  · exact ⟨rfl, .inl rfl⟩
  rename_i r _
  split
  · exact ⟨rfl, .inl rfl⟩
  rename_i hcond
  split
  · exact ⟨rfl, .inl rfl⟩
  · have hr : r ≠ s.recordRegion.focus.target := fun h => hcond (by rw [h]; simp)
    obtain ⟨hfocus, hglide⟩ := Prod.mk.inj (State.switch_pointing c m s.recordRegion.focus.region hr)
    exact ⟨by rw [hfocus]; rfl, .inr (by rw [hglide]; rfl)⟩

end Sys2Proof.Machine
end

section
/-! PROOFS. LAYOUT_RELEASE (O45). -/

namespace Sys2Proof.Machine

/-! ## Re-home (R20, R21, R22) -/

/-- The released layout in force with the pointer re-homed and the accumulator cleared, before focus is looked at. -/
def State.rehomed (s : State) : State := (s.putInForce.rehome s.active).clearPressure

/-- The release before its mismatch check. -/
def State.released (s : State) : State :=
  if s.rehomed.focus.detached then s.rehomed.releaseDetached else s.rehomed.reevaluate .layout 0

theorem State.completeLayout_eq (s : State) : s.completeLayout = s.released.checkMismatch fun _ => true := rfl

theorem State.rehome_eq (old : Layout) (s : State) : s.rehome old = s.setPointer ((s.rehome old).glide.px, (s.rehome old).glide.py) := by
  unfold State.rehome
  split <;> rfl

/-- Re-home sets the pointer and clears the accumulator, and nothing else. -/
theorem State.rehomed_eq (s : State) : s.rehomed = { s.putInForce with
    glide := { s.glide with px := s.rehomed.glide.px, py := s.rehomed.glide.py, pressure := none } } := by
  unfold State.rehomed
  rw [State.rehome_eq]
  rfl

theorem State.rehomed_focus (s : State) : s.rehomed.focus = s.focus := by rw [State.rehomed_eq]; rfl

/-- A display placed in both layouts carries the pointer along; otherwise it goes to the centre of the first screen (R21). -/
theorem State.rehomed_pointer {s : State} {p : Place} (hp : s.active.lookup s.pointer.1 s.pointer.2 = some p) :
    (∀ p' : Place, s.edit.placeOf p.display = some p' →
      s.rehomed.glide.px = s.edit.left p'.tier p'.slot * 16 +
        rehomeAxis s.edit.displays[p.display].width (s.pointer.1 - s.active.left p.tier p.slot) (s.glide.px % 16) ∧
      s.rehomed.glide.py = s.edit.top p'.tier * 16 +
        rehomeAxis s.edit.displays[p.display].height (s.pointer.2 - s.active.top p.tier) (s.glide.py % 16)) ∧
    (s.edit.placeOf p.display = none → ∀ q : Place, s.edit.firstScreen = some q →
      s.rehomed.glide.px = (s.edit.screen q).centre.1 * 16 ∧ s.rehomed.glide.py = (s.edit.screen q).centre.2 * 16) := by
  have hlookup : s.active.lookup s.putInForce.pointer.1 s.putInForce.pointer.2 = some p := hp
  refine ⟨fun p' hp' => ?_, fun hnone q hq => ?_⟩
  · have hplace : s.putInForce.active.placeOf p.display = some p' := hp'
    have hrecord : s.edit.displays[p.display] = s.edit.displays[p'.display] := by simp only [(Layout.placeOf_spec hp').2]
    simp only [State.rehomed, State.rehome, hlookup, hplace, Option.bind_some, Option.map_some]
    rw [hrecord]
    exact ⟨rfl, rfl⟩
  · have hplace : s.putInForce.active.placeOf p.display = none := hnone
    have hfirst : s.putInForce.active.firstScreen = some q := hq
    simp only [State.rehomed, State.rehome, hlookup, hplace, Option.bind_some, Option.map_none, State.centreOfFirst, hfirst]
    exact ⟨rfl, rfl⟩

/-! ## What becomes of the focus (R22, R59) -/

theorem State.releaseDetached_focusOnly (s : State) : s.FocusChangeOnly s.releaseDetached := by
  unfold State.releaseDetached
  split
  · exact (s.warp_focusOnly _).trans (State.recordRegion_focusOnly _)
  · exact .trans (b := s.clampDetached) ⟨rfl, fun _ => rfl, fun _ => TargetPort.KeepsSettings.refl _⟩ (State.recordRegion_focusOnly _)

theorem State.released_of_detached {s : State} (hd : s.focus.detached = true) : s.released = s.rehomed.releaseDetached := by
  rw [State.released, State.rehomed_focus, if_pos hd]

theorem State.released_of_attached {s : State} (hd : s.focus.detached = false) : s.released = s.rehomed.reevaluate .layout 0 := by
  rw [State.released, State.rehomed_focus, if_neg (by rw [hd]; decide)]

theorem State.released_focusOnly (s : State) : s.putInForce.FocusChangeOnly s.released := by
  have hhomed : s.putInForce.FocusChangeOnly s.rehomed := by
    rw [State.rehomed_eq]
    exact ⟨rfl, fun _ => rfl, fun _ => TargetPort.KeepsSettings.refl _⟩
  refine hhomed.trans ?_
  cases hd : s.focus.detached with
  | true => rw [State.released_of_detached hd]; exact State.releaseDetached_focusOnly _
  | false => rw [State.released_of_attached hd]; exact State.reevaluate_focusOnly ..

theorem State.released_windows (s : State) : s.released.windows = s.putInForce.windows := by
  rw [s.released_focusOnly.1]

/-- A detached focus keeps its record but for region and detached flag (R59). -/
theorem State.releaseDetached_eq (s : State) : ∃ px py detached region flag, s.releaseDetached = { s with
    glide := { s.glide with px := px, py := py, detached := detached }
    focus := { s.focus with region := region, detached := flag } } := by
  unfold State.releaseDetached
  split <;> exact ⟨_, _, _, _, _, rfl⟩

theorem State.released_kept (s : State) : s.released.glide.pressure = none ∧ s.released.focus.lock = s.focus.lock := by
  have hp : s.rehomed.glide.pressure = none := by rw [State.rehomed_eq]
  cases hd : s.focus.detached with
  | true =>
    obtain ⟨px, py, detached, region, flag, hreleased⟩ := s.rehomed.releaseDetached_eq
    rw [State.released_of_detached hd, hreleased, hp, s.rehomed_focus]
    exact ⟨rfl, rfl⟩
  | false =>
    obtain ⟨hlock, hglide⟩ := s.rehomed.reevaluate_pointing .layout 0
    rw [State.released_of_attached hd, hlock, s.rehomed_focus]
    rcases hglide with hglide | hglide <;> rw [hglide]
    · exact ⟨hp, rfl⟩
    · exact ⟨rfl, rfl⟩

/-- A re-evaluation leaves the pointer where re-home put it. -/
theorem State.released_pointer_attached {s : State} (hd : s.focus.detached = false) :
    s.released.glide.px = s.rehomed.glide.px ∧ s.released.glide.py = s.rehomed.glide.py := by
  rw [State.released_of_attached hd]
  rcases (s.rehomed.reevaluate_pointing .layout 0).2 with hglide | hglide <;> rw [hglide] <;> exact ⟨rfl, rfl⟩

/-- Of a detached focus with a first region, focus and pointer return to it (R59). -/
theorem State.releaseDetached_some {s : State} {q : Nat × Nat} (hq : s.firstRegion s.focus.target = some q) :
    s.releaseDetached = (s.warp q).recordRegion := by
  rw [State.releaseDetached, hq]

/-- Of a detached focus with none, the detached pointer is clamped (R59). -/
theorem State.releaseDetached_none {s : State} (hq : s.firstRegion s.focus.target = none) :
    s.releaseDetached = s.clampDetached.recordRegion := by
  rw [State.releaseDetached, hq]

theorem State.recordRegion_region {s : State} {r : Region}
    (h : s.recordRegion.regionAt (s.recordRegion.glide.px / 16) (s.recordRegion.glide.py / 16) = some r) : s.recordRegion.focus.region = r := by
  show (s.regionAt s.pointer.1 s.pointer.2).getD s.focus.region = r
  rw [show s.regionAt s.pointer.1 s.pointer.2 = some r from h, Option.getD_some]

/-- A focus that was detached has the region recorded at its pointer (R59, R60). -/
theorem State.released_region {s : State} (hd : s.focus.detached = true) {r : Region}
    (h : s.released.regionAt (s.released.glide.px / 16) (s.released.glide.py / 16) = some r) : s.released.focus.region = r := by
  rw [State.released_of_detached hd] at h ⊢
  cases hq : s.rehomed.firstRegion s.rehomed.focus.target with
  | some q => rw [State.releaseDetached_some hq] at h ⊢; exact State.recordRegion_region h
  | none => rw [State.releaseDetached_none hq] at h ⊢; exact State.recordRegion_region h

theorem State.released_firstRegion {s : State} (hd : s.focus.detached = true) (u : Target) :
    s.released.firstRegion u = s.rehomed.firstRegion u := by
  obtain ⟨px, py, detached, region, flag, hreleased⟩ := s.rehomed.releaseDetached_eq
  rw [State.released_of_detached hd, hreleased]
  rfl

/-- A detached focus that returns to its first region (R59). -/
theorem State.released_some {s : State} (hd : s.focus.detached = true) {q : Nat × Nat} (hq : s.released.firstRegion s.focus.target = some q) :
    s.released = (s.rehomed.warp q).recordRegion := by
  rw [State.released_firstRegion hd, ← s.rehomed_focus] at hq
  rw [State.released_of_detached hd, State.releaseDetached_some hq]

/-- A detached focus that stays detached (R59). -/
theorem State.released_none {s : State} (hd : s.focus.detached = true) (hq : s.released.firstRegion s.focus.target = none) :
    s.released = s.rehomed.clampDetached.recordRegion := by
  rw [State.released_firstRegion hd, ← s.rehomed_focus] at hq
  rw [State.released_of_detached hd, State.releaseDetached_none hq]

/-- Where focus does not return to a first region, the pointer stays where re-home put it. -/
theorem State.released_pointer {s : State} (h : s.focus.detached = false ∨ s.released.firstRegion s.focus.target = none) :
    s.released.glide.px = s.rehomed.glide.px ∧ s.released.glide.py = s.rehomed.glide.py := by
  cases hd : s.focus.detached with
  | false => exact State.released_pointer_attached hd
  | true =>
    rw [State.released_none hd (h.resolve_left (by rw [hd]; decide))]
    exact ⟨rfl, rfl⟩

/-- The state s with its edit layout in force, and with y's windows and pointer. -/
def State.homedAs (s y : State) : State := { s with
  active := s.edit
  holdOwner := none
  windows := y.windows
  glide := { s.glide with px := y.glide.px, py := y.glide.py, pressure := none } }

/-- The release before its mismatch check, as a whole (R20 to R22, R59, R60). -/
theorem State.released_eq (s : State) : s.released = if s.focus.detached then
    { s.homedAs s.released with
      glide := { (s.homedAs s.released).glide with detached := s.released.glide.detached }
      focus := { s.focus with region := s.released.focus.region, detached := s.released.focus.detached } }
    else (s.homedAs s.released).reevaluate .layout 0 := by
  cases hd : s.focus.detached with
  | true =>
    obtain ⟨px, py, detached, region, flag, hreleased⟩ := s.rehomed.releaseDetached_eq
    rw [if_pos rfl, State.homedAs, s.released_windows, State.released_of_detached hd, hreleased, s.rehomed_focus, State.rehomed_eq]
    rfl
  | false =>
    obtain ⟨hx, hy⟩ := State.released_pointer_attached hd
    have hhomed : s.homedAs s.released = s.rehomed := by
      rw [State.homedAs, s.released_windows, hx, hy]
      exact s.rehomed_eq.symm
    rw [if_neg (by decide), hhomed]
    exact State.released_of_attached hd

theorem clampDesktop_eq_min (size v : Nat) : clampDesktop size v = min v (size * 16 - 1) := by
  unfold clampDesktop clamp
  split
  · omega
  · split <;> omega

/-- A focus that stays detached has its pointer clamped into its desktop of the new layout (R59). -/
theorem State.released_clamped {s : State} (hd : s.focus.detached = true) (hq : s.released.firstRegion s.focus.target = none) :
    s.released.focus.detached = true ∧ s.released.glide.detached = s.glide.detached.map fun q =>
      (min q.1 (s.edit.desktops[s.focus.target].dw * 16 - 1), min q.2 (s.edit.desktops[s.focus.target].dh * 16 - 1)) := by
  rw [State.released_none hd hq]
  refine ⟨(congrArg Focus.detached s.rehomed_focus).trans hd, ?_⟩
  show (s.rehomed.glide.detached.map fun q => (clampDesktop (s.rehomed.desktop s.rehomed.focus.target).dw q.1,
    clampDesktop (s.rehomed.desktop s.rehomed.focus.target).dh q.2)) = _
  simp only [clampDesktop_eq_min]
  rw [s.rehomed_focus, s.rehomed_eq]
  rfl


theorem WindowState.release_cases (old new : WindowRec) (r : WindowState) :
    let moved := old.source ≠ new.source ∨ old.display ≠ new.display
    (old.enabled = false → new.enabled = true → r.release old new = ⟨true, none, 0, false⟩) ∧
    (old.enabled = true → new.enabled = false → r.release old new = { r with shown := false }) ∧
    (old.enabled = true → new.enabled = true → ¬moved → r.release old new = r) ∧
    (old.enabled = true → new.enabled = true → moved → r.release old new = ⟨r.shown, none, 0, false⟩) ∧
    (old.enabled = false → new.enabled = false → ¬moved → r.release old new = { r with shown := false }) ∧
    (old.enabled = false → new.enabled = false → moved → r.release old new = ⟨false, none, 0, false⟩) := by
  have hkept : ¬(old.source ≠ new.source ∨ old.display ≠ new.display) →
      (old.source != new.source || old.display != new.display) = false := fun h => by simpa [not_or] using h
  have hmoved : (old.source ≠ new.source ∨ old.display ≠ new.display) →
      (old.source != new.source || old.display != new.display) = true := fun h => by simpa using h
  unfold WindowState.release releaseResets shownAfter
  refine ⟨fun h h' => ?_, fun h h' => ?_, fun h h' hm => ?_, fun h h' hm => ?_, fun h h' hm => ?_, fun h h' hm => ?_⟩ <;>
    simp only [h, h']
  · rfl
  · rfl
  · rw [hkept hm]; rfl
  · rw [hmoved hm]; rfl
  · rw [hkept hm]; rfl
  · rw [hmoved hm]; rfl

end Sys2Proof.Machine

open Sys2Proof Sys2Proof.Machine

/-- Settles O45: a release is re-home, then what becomes of the focus, then the mismatch check (`completeLayout_eq`, `released_focusOnly`,
`checkMismatch_all_spec`). -/
theorem layoutReleaseIsRefusedOrPutInForce : Obligations.LayoutReleaseIsRefusedOrPutInForce := by
  intro t f s h
  refine ⟨fun ho => ?_, fun ho c n hfail => ?_, fun ho hv => ?_⟩
  · exact h.control_refused State.doLayoutRelease (by simp [State.doLayoutRelease, ho])
  · exact h.control_refused State.doLayoutRelease (by simp [State.doLayoutRelease, ho, hfail]; exact ⟨rfl, rfl⟩)
  have hvalid : s.edit.firstFailure = none := by simpa [Layout.valid] using hv
  have hbody : State.doLayoutRelease t f.args { s with ctrlLast := t } = ({ s with ctrlLast := t }.completeLayout, okWith []) := by
    simp [State.doLayoutRelease, ho, hvalid]
  obtain ⟨notices, sent, heq, hsent, hother, hmismatch⟩ := { s with ctrlLast := t }.released.checkMismatch_all_spec
  have hfocus := { s with ctrlLast := t }.released_focusOnly
  rw [State.completeLayout_eq, heq] at hbody
  have hwindows := { s with ctrlLast := t }.released_windows
  obtain ⟨hpressure, hlock⟩ := { s with ctrlLast := t }.released_kept
  have hattached : { s with ctrlLast := t }.released.targets[t].attached = true := (hfocus.2.2 t).1.trans h.1.2.2.1
  have hlast : { s with ctrlLast := t }.released.ctrlLast = t := (congrArg State.ctrlLast hfocus.1 :)
  refine ⟨_, (h.running_control State.doLayoutRelease hbody).trans (congrArg Host.Outcome.next (State.reply_eq_answered hattached hlast)),
    ?_, hpressure, hlock, ?_, hmismatch, fun w => ?_, fun hstay p hp => ?_, fun hd => ⟨fun q hq => ?_, fun hq => ?_⟩⟩
  · have hframe : { s with ctrlLast := t, active := s.edit, holdOwner := none, windows := { s with ctrlLast := t }.released.windows } =
        { s with ctrlLast := t }.putInForce := by rw [hwindows]; rfl
    rw [hframe]
    exact hfocus.trans ⟨rfl, fun _ => rfl, fun _ => TargetPort.KeepsSettings.refl _⟩
  · intro homed s2
    have hs2 : s2 = { s with ctrlLast := t }.released := (State.released_eq { s with ctrlLast := t }).symm
    clear_value s2
    subst hs2
    exact ⟨rfl, hsent, hother, fun region hregion hd => State.released_region (s := { s with ctrlLast := t }) hd hregion⟩
  · have hw : { s with ctrlLast := t }.released.windows[w] = (s.windows[w]).release s.active.windows[w] s.edit.windows[w] := by
      rw [hwindows]
      exact updAll_get ..
    have hcases := WindowState.release_cases s.active.windows[w] s.edit.windows[w] s.windows[w]
    rw [← hw] at hcases
    exact hcases
  · obtain ⟨hx, hy⟩ := State.released_pointer (s := { s with ctrlLast := t }) hstay
    show (∀ p', _ → { s with ctrlLast := t }.released.glide.px = _ ∧ { s with ctrlLast := t }.released.glide.py = _) ∧
      (_ → ∀ q, _ → { s with ctrlLast := t }.released.glide.px = _ ∧ { s with ctrlLast := t }.released.glide.py = _)
    rw [hx, hy]
    exact State.rehomed_pointer (s := { s with ctrlLast := t }) hp
  · rw [State.released_some (s := { s with ctrlLast := t }) hd hq]
    exact ⟨rfl, rfl, rfl, rfl⟩
  · exact State.released_clamped (s := { s with ctrlLast := t }) hd hq
end
section
/-! SUPPORT. The account of held items (R39, R41, R51): what its invariants read of a state, and how they follow a change of it. -/

namespace Sys2Proof.Machine

/-! ## What the account reads of a state -/

/-- What is held down on a console port: its snapshot and its held buttons (R23). -/
def ConsolePort.present (c : ConsolePort) : ModSet × List Key × ButtonSet := (c.snapMods, c.snapKeys, c.held)

/-- The suppressed set of a console port (R41). -/
def ConsolePort.refused (c : ConsolePort) : List Key × ModSet × ButtonSet := (c.supKeys, c.supMods, c.supButtons)

theorem ConsolePort.holding_congr {c d : ConsolePort} (h : d.present = c.present) : d.holding = c.holding := by
  simp only [ConsolePort.present, Prod.mk.injEq] at h
  obtain ⟨hm, hk, hb⟩ := h
  funext i
  cases i <;> simp only [ConsolePort.holding, hm, hk, hb]

theorem ConsolePort.suppressed_congr {c d : ConsolePort} (h : d.refused = c.refused) : d.suppressed = c.suppressed := by
  simp only [ConsolePort.refused, Prod.mk.injEq] at h
  obtain ⟨hk, hm, hb⟩ := h
  funext i
  cases i <;> simp only [ConsolePort.suppressed, hm, hk, hb]

/-- The focus target with its history, what is held down and what is suppressed on each console port, and the key-state tables with the
button records: all that R39, R41 and R51 speak of. -/
structure Ledger where
  target    : Target
  history   : List Target
  present   : Port → ModSet × List Key × ButtonSet
  refused   : Port → List Key × ModSet × ButtonSet
  keyStates : Vector KeyState 8

def State.ledger (s : State) : Ledger where
  target := s.focus.target
  history := s.focus.history
  present := fun p => s.ports[p].present
  refused := fun p => s.ports[p].refused
  keyStates := s.keyStates

/-- Which items are to be accounted for, port by port. -/
abbrev Claims := Port → Item → Bool

/-- The account is exact for the items claimed (R41): each is accounted for once, and no other item is. -/
def State.AccountsFor (s : State) (H : Claims) : Prop := ∀ (p : Port) (i : Item), s.accounts p i = flagNum (H p i)

/-- From s to t the history and the key-state tables stay sound, what is held down stays, and an account exact for H becomes one exact
for H'. -/
structure State.Books (s t : State) (H H' : Claims) : Prop where
  history : s.HistorySound → t.HistorySound
  keys    : s.KeysSound → t.KeysSound
  present : ∀ p : Port, t.ports[p].present = s.ports[p].present
  account : s.AccountsFor H → t.AccountsFor H'

/-- The account stays exact for whatever it is exact for. -/
structure State.KeepsBooks (s t : State) : Prop where
  books : ∀ H : Claims, s.Books t H H

theorem State.Books.trans {s t u : State} {H H' H'' : Claims} (h : s.Books t H H') (k : t.Books u H' H'') : s.Books u H H'' :=
  ⟨k.history ∘ h.history, k.keys ∘ h.keys, fun p => (k.present p).trans (h.present p), k.account ∘ h.account⟩

theorem State.KeepsBooks.trans {s t u : State} (h : s.KeepsBooks t) (k : t.KeepsBooks u) : s.KeepsBooks u :=
  ⟨fun H => (h.books H).trans (k.books H)⟩

theorem State.accounts_congr {s t : State} (h : t.ledger = s.ledger) : t.accounts = s.accounts := by
  simp only [State.ledger, Ledger.mk.injEq, funext_iff] at h
  obtain ⟨-, -, -, hrefused, hkeys⟩ := h
  funext p i
  simp only [State.accounts, ConsolePort.suppressed_congr (hrefused p), hkeys]

theorem State.KeepsBooks.of_ledger {s t : State} (h : t.ledger = s.ledger) : s.KeepsBooks t := by
  refine ⟨fun H => ?_⟩
  have haccounts := State.accounts_congr h
  simp only [State.ledger, Ledger.mk.injEq, funext_iff] at h
  obtain ⟨htarget, hhistory, hpresent, -, hkeys⟩ := h
  refine ⟨fun hs => ?_, fun hs => ?_, hpresent, fun hs p i => ?_⟩
  · rw [State.HistorySound, htarget, hhistory]; exact hs
  · rw [State.KeysSound, hkeys]; exact hs
  · rw [haccounts]; exact hs p i

theorem State.KeepsBooks.refl (s : State) : s.KeepsBooks s := .of_ledger rfl

/-! ## The account across a change at one target -/

/-- Counting after one place changed. -/
theorem countP_changed {α : Type} {f g : α → Bool} {a : α} : ∀ {l : List α}, l.Nodup → a ∈ l → (∀ b ∈ l, b ≠ a → g b = f b) →
    l.countP g + flagNum (f a) = l.countP f + flagNum (g a)
  | [], _, ha, _ => absurd ha (by simp)
  | b :: l, hnodup, ha, hother => by
    obtain ⟨hb, hl⟩ := List.nodup_cons.1 hnodup
    simp only [List.countP_cons, flagNum]
    by_cases e : b = a
    · subst e
      rw [List.countP_congr fun c hc => by rw [hother c (by simp [hc]) fun e => hb (e ▸ hc)]]
      omega
    · have ih := countP_changed hl ((List.mem_cons.1 ha).resolve_left fun h => e h.symm) fun c hc => hother c (by simp [hc])
      rw [hother b (by simp) e]
      simp only [flagNum] at ih
      omega

/-- One target's share of the account: the item suppressed, or held at t. -/
def State.share (s : State) (t : Target) (p : Port) (i : Item) : Nat :=
  flagNum (s.ports[p].suppressed i) + flagNum (s.keyStates[t].holds p i)

/-- Where only t's table and the suppressed sets change, the account follows their share. -/
theorem State.accounts_changed {s x : State} {t : Target} {p : Port} {i : Item}
    (hother : ∀ u : Target, u ≠ t → x.keyStates[u].holds p i = s.keyStates[u].holds p i) :
    x.accounts p i + s.share t p i = s.accounts p i + x.share t p i := by
  have h := countP_changed (f := fun u => s.keyStates[u].holds p i) (g := fun u => x.keyStates[u].holds p i) (List.nodup_finRange 8)
    (List.mem_finRange t) fun u _ hu => hother u hu
  simp only [State.accounts, State.share]
  omega

theorem State.share_le_accounts (s : State) (t : Target) (p : Port) (i : Item) : s.share t p i ≤ s.accounts p i := by
  refine Nat.add_le_add_left ?_ _
  cases h : s.keyStates[t].holds p i with
  | false => exact Nat.zero_le _
  | true => exact List.countP_pos_iff.2 ⟨t, List.mem_finRange t, h⟩

/-- An account exact for H becomes exact for H' when the share of the one target that changes grows as the claims do. -/
theorem State.AccountsFor.changed {s x : State} {H H' : Claims} (t : Target) (h : s.AccountsFor H)
    (hother : ∀ (u : Target) (p : Port) (i : Item), u ≠ t → x.keyStates[u].holds p i = s.keyStates[u].holds p i)
    (hshare : ∀ (p : Port) (i : Item), s.share t p i ≤ flagNum (H p i) →
      x.share t p i + flagNum (H p i) = s.share t p i + flagNum (H' p i)) : x.AccountsFor H' := by
  intro p i
  have hle := s.share_le_accounts t p i
  have hchanged := State.accounts_changed (s := s) (x := x) (p := p) (i := i) fun u hu => hother u p i hu
  have hs := h p i
  have hx := hshare p i (hs ▸ hle)
  omega

/-- What nobody claims is suppressed nowhere and held nowhere. -/
theorem State.AccountsFor.unclaimed {s : State} {H : Claims} (h : s.AccountsFor H) {p : Port} {i : Item} (hi : H p i = false) :
    s.ports[p].suppressed i = false ∧ ∀ t : Target, s.keyStates[t].holds p i = false := by
  have hzero : s.accounts p i = 0 := (h p i).trans (by rw [hi]; rfl)
  have hshare : ∀ t : Target, s.share t p i = 0 := fun t => Nat.le_zero.1 (hzero ▸ s.share_le_accounts t p i)
  have hflag : ∀ b : Bool, flagNum b = 0 → b = false := by decide
  exact ⟨hflag _ (Nat.eq_zero_of_add_eq_zero_right (hshare 0)), fun t => hflag _ (Nat.eq_zero_of_add_eq_zero_left (hshare t))⟩

/-- The claims with the items of a set on port p added. -/
def Claims.add (p : Port) (I : Item → Bool) (H : Claims) : Claims := fun q i => H q i || (decide (q = p) && I i)

/-- The claims with the items of a set on port p taken out. -/
def Claims.drop (p : Port) (I : Item → Bool) (H : Claims) : Claims := fun q i => H q i && !(decide (q = p) && I i)

/-- The one-item set. -/
def Item.only (i : Item) : Item → Bool := fun j => j = i

/-! ## Key-state tables stay sound (R39) -/

theorem KeyState.initial_sound (counter : BitVec 16) : KeyState.Sound { KeyState.initial with counter := counter } := by
  refine ⟨Nat.zero_le _, List.nodup_nil, fun e he => nomatch he⟩

/-- Entries whose keys are some of a sound table's, in its order, and whose sources are not empty, are a sound table's. -/
theorem KeyState.Sound.of_sublist {ks ks' : KeyState} (h : ks.Sound) (hsub : (ks'.keys.map KeyEntry.key).Sublist (ks.keys.map KeyEntry.key))
    (hsources : ∀ e ∈ ks'.keys, e.sources ≠ 0#4) : ks'.Sound := by
  obtain ⟨hlen, hnodup, -⟩ := h
  refine ⟨?_, hnodup.sublist hsub, hsources⟩
  have := hsub.length_le
  simp only [List.length_map] at this
  omega

theorem adjoin_ne_zero {n : Nat} (s : BitVec n) (i : Fin n) : adjoin s i ≠ 0#n := has_nonzero (i := i) (by simp)

/-- Entries changed in their sources, with those left without a source removed, keep keys and sequence numbers, in their order. -/
theorem filter_sources_sublist (f : KeyEntry → KeyEntry) (hf : ∀ e, ((f e).key, (f e).seq) = (e.key, e.seq)) (l : List KeyEntry) :
    (((l.map f).filter fun e => e.sources != 0).map fun e => (e.key, e.seq)).Sublist (l.map fun e => (e.key, e.seq)) := by
  have h : ((l.map f).map fun e => (e.key, e.seq)) = l.map fun e => (e.key, e.seq) := by
    rw [List.map_map]
    exact List.map_congr_left fun e _ => hf e
  exact h ▸ (List.filter_sublist.map _)

theorem filter_sources_sound {ks ks' : KeyState} (f : KeyEntry → KeyEntry) (hf : ∀ e, ((f e).key, (f e).seq) = (e.key, e.seq))
    (hks : ks'.keys = (ks.keys.map f).filter fun e => e.sources != 0) (h : ks.Sound) : ks'.Sound := by
  refine h.of_sublist ?_ fun e he => ?_
  · have := (filter_sources_sublist f hf ks.keys).map Prod.fst
    rw [List.map_map, List.map_map] at this
    exact hks ▸ this
  · rw [hks] at he
    simpa using (List.mem_filter.1 he).2

theorem KeyState.release_sound (p : Port) (i : Item) {ks : KeyState} (h : ks.Sound) : (ks.release p i).Sound := by
  cases i with
  | key k => exact filter_sources_sound _ (fun e => by split <;> rfl) rfl h
  | mod m => exact h
  | button b => exact h

theorem KeyState.dropPorts_sound (f : PortSet) {ks : KeyState} (h : ks.Sound) : (ks.dropPorts f).Sound :=
  filter_sources_sound (fun e => { e with sources := minus e.sources f }) (fun _ => rfl) rfl h

theorem KeyState.hasKey_eq_false {k : Key} {ks : KeyState} : ks.hasKey k = false ↔ ∀ e ∈ ks.keys, e.key ≠ k := by
  simp [KeyState.hasKey]

/-- A press of a key that has an entry keeps the keys and their order (R39, R45). -/
theorem KeyState.press_joined {p : Port} {k : Key} {ks : KeyState} (h : ks.hasKey k = true) : ks.press p (.key k) =
    some { ks with keys := ks.keys.map fun e => if e.key = k then { e with sources := adjoin e.sources p } else e } := by
  simp only [KeyState.press, KeyState.pressKey, h, if_true]

/-- A press of a key without an entry is inserted last, where fewer than twelve keys are held (R39, R45). -/
theorem KeyState.press_inserted {p : Port} {k : Key} {ks : KeyState} (h : ks.hasKey k = false) (hlen : ks.keys.length < Config.keyCap) :
    ks.press p (.key k) = some { ks with keys := ks.keys ++ [⟨k, single p, ks.counter⟩], counter := ks.counter + 1 } := by
  simp [KeyState.press, KeyState.pressKey, h, hlen]

/-- A full table refuses a key without an entry (R45). -/
theorem KeyState.press_refused {p : Port} {k : Key} {ks : KeyState} (h : ks.hasKey k = false) (hlen : Config.keyCap ≤ ks.keys.length) :
    ks.press p (.key k) = none := by
  simp [KeyState.press, KeyState.pressKey, h, hlen]

theorem KeyState.press_sound {p : Port} {i : Item} {ks ks' : KeyState} (h : ks.press p i = some ks') (hs : ks.Sound) : ks'.Sound := by
  cases i with
  | key k =>
    cases hk : ks.hasKey k with
    | true =>
      rw [KeyState.press_joined hk] at h
      obtain rfl := Option.some.inj h
      refine hs.of_sublist ?_ fun e he => ?_
      · refine (congrArg (List.Sublist · _) ?_).mpr (List.Sublist.refl _)
        rw [List.map_map]
        exact List.map_congr_left fun e _ => by simp only [Function.comp_apply]; split <;> rfl
      · obtain ⟨d, hd, rfl⟩ := List.mem_map.1 he
        split
        · exact adjoin_ne_zero _ _
        · exact hs.2.2 d hd
    | false =>
      rcases Nat.lt_or_ge ks.keys.length Config.keyCap with hlen | hlen
      · rw [KeyState.press_inserted hk hlen] at h
        obtain rfl := Option.some.inj h
        obtain ⟨-, hnodup, hsources⟩ := hs
        refine ⟨by simpa using hlen, ?_, fun e he => ?_⟩
        · rw [List.map_append, List.map_singleton, List.nodup_append]
          refine ⟨hnodup, by simp, fun a ha b hb => ?_⟩
          obtain ⟨e, he, rfl⟩ := List.mem_map.1 ha
          rw [List.mem_singleton.1 hb]
          exact KeyState.hasKey_eq_false.1 hk e he
        · rcases List.mem_append.1 he with he | he
          · exact hsources e he
          · rw [List.mem_singleton.1 he]
            exact has_nonzero (i := p) (by simp)
      · rw [KeyState.press_refused hk hlen] at h
        cases h
  | mod m => obtain rfl := Option.some.inj h; exact hs
  | button b => obtain rfl := Option.some.inj h; exact hs

end Sys2Proof.Machine
end

section
/-! SUPPORT. Operations that touch target ports, notices and frames sent only; presses and releases, and how the account follows them
(R45 to R48). -/

namespace Sys2Proof.Machine

/-! ## What delivery touches -/

/-- From s to t nothing changes but target ports, notices and frames sent. -/
def State.Delivers (s t : State) : Prop := t = { s with targets := t.targets, notices := t.notices, sent := t.sent }

theorem State.Delivers.refl (s : State) : s.Delivers s := rfl

theorem State.Delivers.trans {s t u : State} (h : s.Delivers t) (k : t.Delivers u) : s.Delivers u := by
  unfold State.Delivers at h k ⊢
  rw [k, h]

theorem State.Delivers.ledger {s t : State} (h : s.Delivers t) : t.ledger = s.ledger := by
  rw [h]; rfl

theorem State.Delivers.keeps {s t : State} (h : s.Delivers t) : s.KeepsBooks t := .of_ledger h.ledger

theorem State.Delivers.keyStates {s t : State} (h : s.Delivers t) : t.keyStates = s.keyStates := by rw [h]

theorem State.Delivers.ports {s t : State} (h : s.Delivers t) : t.ports = s.ports := by rw [h]

theorem State.modTarget_delivers (t : Target) (f : TargetPort → TargetPort) (s : State) : s.Delivers (s.modTarget t f) := rfl

theorem State.raise_delivers (k : NoticeKind) (i : Fin 16) (s : State) : s.Delivers (s.raise k i) := rfl

theorem State.sendLeds_delivers (c : Port → Bool) (s : State) : s.Delivers (s.sendLeds c) := rfl

theorem State.sendTo_delivers (t : Target) (f : OutFrame) (s : State) : s.Delivers (s.sendTo t f) := by
  unfold State.sendTo; split <;> rfl

theorem State.offerReport_delivers (t : Target) (r : Report) (s : State) : s.Delivers (s.offerReport t r) := by
  unfold State.offerReport
  split
  · refine .trans ?_ (State.modTarget_delivers ..)
    split <;> rfl
  all_goals rfl

theorem State.announceView_delivers (v : ModSet × List Key) (t : Target) (s : State) : s.Delivers (s.announceView v t) := by
  unfold State.announceView
  split
  · rfl
  · exact s.offerReport_delivers t _

theorem State.buttonReport_delivers (t : Target) (s : State) : s.Delivers (s.buttonReport t) := s.offerReport_delivers t _

theorem State.wakeRequest_delivers (t : Target) (s : State) : s.Delivers (s.wakeRequest t) := by
  unfold State.wakeRequest
  split
  · exact (s.sendTo_delivers t _).trans (State.modTarget_delivers ..)
  all_goals rfl

theorem State.requestSync_delivers (t : Target) (s : State) : s.Delivers (s.requestSync t) := rfl

theorem State.pointerReport_delivers (t : Target) (q : Nat × Nat) (w : Int) (changed entry : Bool) (s : State) :
    s.Delivers (s.pointerReport t q w changed entry) := by
  have hlast : s.Delivers (s.setLast t q) := rfl
  have hsync := hlast.trans (State.requestSync_delivers t _)
  unfold State.pointerReport
  dsimp only
  split
  · split
    · split
      · exact hsync.trans (State.buttonReport_delivers t _)
      · exact hsync
    · split
      · exact hlast.trans (State.offerReport_delivers t _ _)
      · split
        · exact hlast.trans (State.offerReport_delivers t _ _)
        · exact hlast
  · exact hlast.trans (State.offerReport_delivers t _ _)

theorem State.entry_delivers (b : Target) (s : State) : s.Delivers (s.entry b) := by
  unfold State.entry
  split
  · exact State.pointerReport_delivers ..
  · rfl

theorem State.foldl_delivers {α : Type} {f : State → α → State} (h : ∀ (s : State) (a : α), s.Delivers (f s a)) (l : List α) (s : State) :
    s.Delivers (l.foldl f s) := by
  induction l generalizing s with
  | nil => rfl
  | cons a l ih => exact (h s a).trans (ih _)

theorem State.reply_delivers (t : Target) (f : ControlFrame) (a : Answer) (s : State) : s.Delivers (s.reply t f a) :=
  (s.sendTo_delivers t _).trans (State.modTarget_delivers ..)

theorem State.checkMismatch_delivers (c : Display → Bool) (s : State) : s.Delivers (s.checkMismatch c) :=
  State.foldl_delivers (fun _ _ => State.raise_delivers ..) _ s

/-! ## One console port or one table changed -/

theorem State.modPort_ledger {p : Port} {f : ConsolePort → ConsolePort} {s : State} (hpresent : ∀ c, (f c).present = c.present)
    (hrefused : ∀ c, (f c).refused = c.refused) : (s.modPort p f).ledger = s.ledger := by
  have hp : (s.modPort p f).ledger.present = s.ledger.present := funext fun q => by
    show (upd s.ports p f)[q].present = s.ports[q].present
    rw [upd_get_eq]
    split
    · exact hpresent _
    · rfl
  have hr : (s.modPort p f).ledger.refused = s.ledger.refused := funext fun q => by
    show (upd s.ports p f)[q].refused = s.ports[q].refused
    rw [upd_get_eq]
    split
    · exact hrefused _
    · rfl
  show ({ s.ledger with present := (s.modPort p f).ledger.present, refused := (s.modPort p f).ledger.refused } : Ledger) = s.ledger
  rw [hp, hr]

@[simp] theorem ConsolePort.suppress_present (i : Item) (c : ConsolePort) : (c.suppress i).present = c.present := by
  cases i <;> rfl

@[simp] theorem ConsolePort.unsuppress_present (i : Item) (c : ConsolePort) : (c.unsuppress i).present = c.present := by
  cases i <;> rfl

/-- With nothing claimed, a share is empty. -/
theorem flagNum_share_unclaimed : ∀ {a b : Bool}, flagNum a + flagNum b ≤ flagNum false → a = false ∧ b = false := by decide

/-- A share that is not empty is claimed. -/
theorem flagNum_share_claimed : ∀ {a b c : Bool}, flagNum a + flagNum b ≤ flagNum c → (a || b) = true → c = true := by decide

@[simp] theorem Claims.add_only_self (p : Port) (i : Item) (H : Claims) : Claims.add p i.only H p i = true := by
  simp [Claims.add, Item.only]

@[simp] theorem Claims.drop_only_self (p : Port) (i : Item) (H : Claims) : Claims.drop p i.only H p i = false := by
  simp [Claims.drop, Item.only]

theorem Claims.add_only_ne {p q : Port} {i j : Item} (h : ¬(q = p ∧ j = i)) (H : Claims) : Claims.add p i.only H q j = H q j := by
  have : (decide (q = p) && decide (j = i)) = false := by simpa using h
  rw [Claims.add, Item.only, this, Bool.or_false]

theorem Claims.drop_only_ne {p q : Port} {i j : Item} (h : ¬(q = p ∧ j = i)) (H : Claims) : Claims.drop p i.only H q j = H q j := by
  have : (decide (q = p) && decide (j = i)) = false := by simpa using h
  rw [Claims.drop, Item.only, this, Bool.not_false, Bool.and_true]

/-- Suppressed sets changed on a port leave the rest of the ledger. -/
theorem State.modPort_books {p : Port} {f : ConsolePort → ConsolePort} {H H' : Claims} {s : State}
    (hpresent : ∀ c, (f c).present = c.present)
    (hshare : ∀ (q : Port) (i : Item), s.share 0 q i ≤ flagNum (H q i) →
      flagNum ((s.modPort p f).ports[q].suppressed i) + flagNum (H q i) = flagNum (s.ports[q].suppressed i) + flagNum (H' q i)) :
    s.Books (s.modPort p f) H H' := by
  refine ⟨id, id, fun q => ?_, fun h => h.changed 0 (fun _ _ _ _ => rfl) fun q i hle => ?_⟩
  · rw [State.modPort_ports, upd_get_eq]
    split
    · exact hpresent _
    · rfl
  · have := hshare q i hle
    simp only [State.share, State.modPort_keyStates]
    omega

/-- Items that nobody claims join the suppressed set of p. -/
theorem State.suppress_books {p : Port} {f : ConsolePort → ConsolePort} {I : Item → Bool} {H : Claims} (s : State)
    (hpresent : ∀ c, (f c).present = c.present) (hsup : ∀ (c : ConsolePort) (i : Item), (f c).suppressed i = (c.suppressed i || I i))
    (hI : ∀ i : Item, I i = true → H p i = false) : s.Books (s.modPort p f) H (Claims.add p I H) := by
  refine State.modPort_books hpresent fun q i hle => ?_
  rw [State.modPort_ports, upd_get_eq, Claims.add]
  by_cases hq : q = p
  · subst hq
    rw [if_pos rfl, hsup, decide_eq_true rfl, Bool.true_and]
    cases hi : I i with
    | false => rw [Bool.or_false, Bool.or_false]
    | true =>
      rw [hI i hi] at hle ⊢
      rw [(flagNum_share_unclaimed hle).1]
      rfl
  · rw [if_neg hq, decide_eq_false hq, Bool.false_and, Bool.or_false]

/-- An item leaves the suppressed set of p that held it. -/
theorem State.unsuppress_books {p : Port} {i : Item} {H : Claims} {s : State} (h : s.ports[p].suppressed i = true) :
    s.Books (s.modPort p (ConsolePort.unsuppress i)) H (Claims.drop p i.only H) := by
  refine State.modPort_books (ConsolePort.unsuppress_present i) fun q j hle => ?_
  rw [State.modPort_ports, upd_get_eq]
  by_cases hqj : q = p ∧ j = i
  · obtain ⟨rfl, rfl⟩ := hqj
    rw [flagNum_share_claimed hle (by rw [h, Bool.true_or]), if_pos rfl, ConsolePort.unsuppress_suppressed, h, Claims.drop_only_self,
      decide_eq_true rfl]
    rfl
  · rw [Claims.drop_only_ne hqj]
    split
    · rename_i hq
      rw [ConsolePort.unsuppress_suppressed, decide_eq_false fun hj => hqj ⟨hq, hj⟩, Bool.not_false, Bool.and_true]
    · rfl

theorem State.KeysSound.modKeys {s : State} {t : Target} {f : KeyState → KeyState} (h : s.KeysSound)
    (hf : (f s.keyStates[t]).Sound) : (s.modKeys t f).KeysSound :=
  forall_upd h hf

/-- One table changed leaves the rest of the ledger. -/
theorem State.modKeys_books {t : Target} {f : KeyState → KeyState} {H H' : Claims} {s : State}
    (hsound : s.keyStates[t].Sound → (f s.keyStates[t]).Sound)
    (hshare : ∀ (q : Port) (i : Item), s.share t q i ≤ flagNum (H q i) →
      flagNum ((f s.keyStates[t]).holds q i) + flagNum (H q i) = flagNum (s.keyStates[t].holds q i) + flagNum (H' q i)) :
    s.Books (s.modKeys t f) H H' := by
  refine ⟨id, fun h => h.modKeys (hsound (h t)), fun _ => rfl, fun h => h.changed t (fun u q i hu => ?_) fun q i hle => ?_⟩
  · rw [State.modKeys_keyStates, upd_get_ne _ _ _ _ hu]
  · have := hshare q i hle
    simp only [State.share, State.modKeys_keyStates, upd_get, State.modKeys_ports]
    omega

/-- A taken press of an item that nobody claims is booked at t (R45, R47). -/
theorem State.press_books {p : Port} {t : Target} {i : Item} {ks : KeyState} {H : Claims} {s : State}
    (h : s.keyStates[t].press p i = some ks) (hi : H p i = false) : s.Books (s.modKeys t fun _ => ks) H (Claims.add p i.only H) := by
  refine State.modKeys_books (KeyState.press_sound h) fun q j hle => ?_
  rw [KeyState.press_holds p q i j _ _ h]
  by_cases hqj : q = p ∧ j = i
  · obtain ⟨rfl, rfl⟩ := hqj
    rw [hi] at hle ⊢
    rw [(flagNum_share_unclaimed hle).2, Claims.add_only_self, decide_eq_true ⟨rfl, rfl⟩]
    rfl
  · rw [Claims.add_only_ne hqj, decide_eq_false hqj, Bool.or_false]

/-- A port that holds an item at t leaves its source set (R46). -/
theorem State.release_books {p : Port} {t : Target} {i : Item} {H : Claims} {s : State} (h : s.keyStates[t].holds p i = true) :
    s.Books (s.modKeys t (KeyState.release p i)) H (Claims.drop p i.only H) := by
  refine State.modKeys_books (KeyState.release_sound p i) fun q j hle => ?_
  rw [KeyState.release_holds]
  by_cases hqj : q = p ∧ j = i
  · obtain ⟨rfl, rfl⟩ := hqj
    rw [flagNum_share_claimed hle (by rw [h, Bool.or_true]), h, Claims.drop_only_self, decide_eq_true ⟨rfl, rfl⟩]
    rfl
  · rw [Claims.drop_only_ne hqj, decide_eq_false hqj, Bool.not_false, Bool.and_true]

end Sys2Proof.Machine
end

section
/-! SUPPORT. Presses, releases, cleared input and focus switches, each with what it does to the account (R44 to R48, R51 to R53). -/

namespace Sys2Proof.Machine

/-! ## A press routed to a target (R45, R47) -/

/-- A press starts the wake of t: SUSPENDED under WAKE_ON_KEY (R45, R150). -/
abbrev State.WakesOnPress (t : Target) (s : State) : Prop := s.targets[t].power = .suspended ∧ s.policies[t].wakePolicy = .onKey

/-- A press routed to t is taken, a full key-state table apart (R45). -/
abbrev State.TakesPress (t : Target) (s : State) : Prop :=
  s.targets[t].power = .active ∨ s.targets[t].power = .waking ∨ s.WakesOnPress t

/-- The state with the wake a press routed to t starts. -/
def State.wokenByPress (t : Target) (s : State) : State := if s.WakesOnPress t then s.wakeRequest t else s

theorem State.wokenByPress_delivers (t : Target) (s : State) : s.Delivers (s.wokenByPress t) := by
  unfold State.wokenByPress
  split
  · exact s.wakeRequest_delivers t
  · rfl

theorem State.acceptPress_eq (t : Target) (s : State) : s.acceptPress t = (s.wokenByPress t, decide (s.TakesPress t)) := by
  unfold State.acceptPress State.wokenByPress
  split <;> rename_i hp
  · simp only [State.TakesPress, State.WakesOnPress, hp]
    simp
  · by_cases hk : s.policies[t].wakePolicy = .onKey
    · rw [if_pos hk, if_pos ⟨hp, hk⟩, decide_eq_true (.inr (.inr ⟨hp, hk⟩))]
    · simp only [State.TakesPress, State.WakesOnPress, hp, hk]
      simp
  · simp only [State.TakesPress, State.WakesOnPress, hp]
    simp
  · simp only [State.TakesPress, State.WakesOnPress, hp]
    simp

/-- A taken press is booked at its target. -/
theorem State.bookPress_booked {p : Port} {t : Target} {i : Item} {ks : KeyState} {s : State} (h : s.TakesPress t)
    (hks : s.keyStates[t].press p i = some ks) : s.bookPress p t i = (s.wokenByPress t).modKeys t fun _ => ks := by
  rw [← (s.wokenByPress_delivers t).keyStates] at hks
  simp only [State.bookPress, State.acceptPress_eq, decide_eq_true h, if_true, hks]

/-- Every other press joins the suppressed set of its port. -/
theorem State.bookPress_refused {p : Port} {t : Target} {i : Item} {s : State}
    (h : s.TakesPress t → s.keyStates[t].press p i = none) : s.bookPress p t i = (s.wokenByPress t).modPort p (ConsolePort.suppress i) := by
  rw [← (s.wokenByPress_delivers t).keyStates] at h
  by_cases ht : s.TakesPress t
  · simp only [State.bookPress, State.acceptPress_eq, decide_eq_true ht, if_true, h ht]
  · simp only [State.bookPress, State.acceptPress_eq, decide_eq_false ht, Bool.false_eq_true, if_false]

/-- One item of p is suppressed that nobody claims. -/
theorem State.suppressItem_books {p : Port} {i : Item} {H : Claims} (s : State) (hi : H p i = false) :
    s.Books (s.modPort p (ConsolePort.suppress i)) H (Claims.add p i.only H) :=
  s.suppress_books (ConsolePort.suppress_present i) (fun c j => ConsolePort.suppress_suppressed i j c) fun j hj => by
    rw [of_decide_eq_true hj, hi]

/-- A press, booked or refused, accounts for its item (R41, R45). -/
theorem State.bookPress_books {p : Port} (t : Target) {i : Item} {H : Claims} (s : State) (hi : H p i = false) :
    s.Books (s.bookPress p t i) H (Claims.add p i.only H) := by
  have hwoken := (s.wokenByPress_delivers t).keeps.books H
  have hkeys := (s.wokenByPress_delivers t).keyStates
  by_cases ht : s.TakesPress t
  · cases hks : s.keyStates[t].press p i with
    | some ks =>
      rw [State.bookPress_booked ht hks]
      exact hwoken.trans (State.press_books (by rw [hkeys]; exact hks) hi)
    | none =>
      rw [State.bookPress_refused fun _ => hks]
      exact hwoken.trans (State.suppressItem_books _ hi)
  · rw [State.bookPress_refused fun h => absurd h ht]
    exact hwoken.trans (State.suppressItem_books _ hi)

theorem State.keyPress_books {p : Port} (t : Target) {i : KeyItem} {H : Claims} (s : State) (hi : H p i.item = false) :
    s.Books (s.keyPress p t i) H (Claims.add p i.item.only H) :=
  (s.bookPress_books t hi).trans ((State.announceView_delivers ..).keeps.books _)

theorem State.buttonPress_books {p : Port} (dest : Option Target) {b : Button} {H : Claims} (s : State) (hb : H p (.button b) = false) :
    s.Books (s.buttonPress p dest b) H (Claims.add p (Item.button b).only H) := by
  cases dest with
  | some t => exact s.bookPress_books t hb
  | none => exact s.suppressItem_books hb

/-! ## A release (R46) -/

theorem State.holder_eq_some {p : Port} {i : Item} {t : Target} {s : State} (h : s.holder p i = some t) :
    s.keyStates[t].holds p i = true := by
  simpa using List.find?_some h

theorem State.holder_eq_none {p : Port} {i : Item} {s : State} (h : s.holder p i = none) (t : Target) :
    s.keyStates[t].holds p i = false := by
  simpa using List.find?_eq_none.1 h t (List.mem_finRange t)

/-- A release, without the T_KEYS of a changed view: the item leaves the suppressed set, or the source set at its holder. -/
def State.releaseItem (p : Port) (i : Item) (s : State) : State :=
  if s.ports[p].suppressed i then s.modPort p (ConsolePort.unsuppress i)
  else
    match s.holder p i with
    | some t => s.modKeys t (KeyState.release p i)
    | none => s

theorem State.buttonRelease_eq (p : Port) (b : Button) (s : State) : s.buttonRelease p b = s.releaseItem p (.button b) := rfl

theorem State.releaseItem_suppressed {p : Port} {i : Item} {s : State} (h : s.ports[p].suppressed i = true) :
    s.releaseItem p i = s.modPort p (ConsolePort.unsuppress i) := by
  rw [State.releaseItem, if_pos h]

theorem State.releaseItem_held {p : Port} {i : Item} {t : Target} {s : State} (h : s.ports[p].suppressed i = false)
    (ht : s.holder p i = some t) : s.releaseItem p i = s.modKeys t (KeyState.release p i) := by
  simp only [State.releaseItem, h, ht, Bool.false_eq_true, if_false]

theorem State.releaseItem_nowhere {p : Port} {i : Item} {s : State} (h : s.ports[p].suppressed i = false) (ht : s.holder p i = none) :
    s.releaseItem p i = s := by
  simp only [State.releaseItem, h, ht, Bool.false_eq_true, if_false]

theorem State.keyRelease_suppressed {p : Port} {i : KeyItem} {s : State} (h : s.ports[p].suppressed i.item = true) :
    s.keyRelease p i = s.releaseItem p i.item := by
  rw [State.keyRelease, if_pos h, State.releaseItem_suppressed h]

theorem State.keyRelease_held {p : Port} {i : KeyItem} {t : Target} {s : State} (h : s.ports[p].suppressed i.item = false)
    (ht : s.holder p i.item = some t) : s.keyRelease p i = (s.releaseItem p i.item).announceView (s.view t) t := by
  rw [State.releaseItem_held h ht]
  simp only [State.keyRelease, h, ht, Bool.false_eq_true, if_false]

theorem State.keyRelease_nowhere {p : Port} {i : KeyItem} {s : State} (h : s.ports[p].suppressed i.item = false)
    (ht : s.holder p i.item = none) : s.keyRelease p i = s.releaseItem p i.item := by
  rw [State.releaseItem_nowhere h ht]
  simp only [State.keyRelease, h, ht, Bool.false_eq_true, if_false]

/-- A release settles its item: it is accounted for no more (R41, R46). -/
theorem State.releaseItem_books (p : Port) (i : Item) (H : Claims) (s : State) : s.Books (s.releaseItem p i) H (Claims.drop p i.only H) := by
  cases h : s.ports[p].suppressed i with
  | true => exact State.releaseItem_suppressed h ▸ State.unsuppress_books h
  | false =>
    cases ht : s.holder p i with
    | some t => exact State.releaseItem_held h ht ▸ State.release_books (State.holder_eq_some ht)
    | none =>
      rw [State.releaseItem_nowhere h ht]
      refine ⟨id, id, fun _ => rfl, fun hs q j => ?_⟩
      by_cases hqj : q = p ∧ j = i
      · obtain ⟨rfl, rfl⟩ := hqj
        have hcount : (List.finRange 8).countP (fun t => s.keyStates[t].holds q j) = 0 :=
          List.countP_eq_zero.2 fun t _ => by simpa using State.holder_eq_none ht t
        rw [Claims.drop_only_self, State.accounts, h, hcount]
        rfl
      · rw [Claims.drop_only_ne hqj]
        exact hs q j

theorem State.keyRelease_delivers (p : Port) (i : KeyItem) (s : State) : (s.releaseItem p i.item).Delivers (s.keyRelease p i) := by
  cases h : s.ports[p].suppressed i.item with
  | true => rw [State.keyRelease_suppressed h]; rfl
  | false =>
    cases ht : s.holder p i.item with
    | some t => rw [State.keyRelease_held h ht]; exact State.announceView_delivers ..
    | none => rw [State.keyRelease_nowhere h ht]; rfl

theorem State.keyRelease_books (p : Port) (i : KeyItem) (H : Claims) (s : State) :
    s.Books (s.keyRelease p i) H (Claims.drop p i.item.only H) :=
  (s.releaseItem_books p i.item H).trans ((s.keyRelease_delivers p i).keeps.books _)

/-! ## Several presses, several releases -/

/-- The set of the items of a list. -/
def itemsOf (l : List Item) : Item → Bool := fun i => l.contains i

/-- Presses of different items that nobody claims, one by one, account for each of them. -/
theorem foldl_presses_books {σ ι : Type} {state : σ → State} {item : ι → Item} {f : σ → ι → σ} {p : Port}
    (h : ∀ (a : σ) (i : ι) (H : Claims), H p (item i) = false → (state a).Books (state (f a i)) H (Claims.add p (item i).only H)) :
    ∀ (l : List ι) (a : σ) (H : Claims), (l.map item).Nodup → (∀ i ∈ l, H p (item i) = false) →
      (state a).Books (state (l.foldl f a)) H (Claims.add p (itemsOf (l.map item)) H)
  | [], a, H, _, _ => by
    have hnone : Claims.add p (itemsOf ([].map item)) H = H := by
      funext q j
      simp [Claims.add, itemsOf]
    rw [hnone]
    exact (State.KeepsBooks.refl _).books H
  | i :: l, a, H, hnodup, hH => by
    obtain ⟨hi, hl⟩ := List.nodup_cons.1 (List.map_cons ▸ hnodup)
    have hrest := foldl_presses_books h l (f a i) (Claims.add p (item i).only H) hl fun j hj => by
      have hji : item j ≠ item i := fun e => hi (e ▸ List.mem_map_of_mem hj)
      rw [Claims.add_only_ne fun e => hji e.2, hH j (List.mem_cons_of_mem _ hj)]
    have hboth : Claims.add p (itemsOf ((i :: l).map item)) H = Claims.add p (itemsOf (l.map item)) (Claims.add p (item i).only H) := by
      funext q j
      simp only [Claims.add, itemsOf, Item.only, List.map_cons, List.contains_cons, beq_eq_decide, Bool.and_or_distrib_left, Bool.or_assoc]
    rw [List.foldl_cons, hboth]
    exact (h a i H (hH i (List.mem_cons_self ..))).trans hrest

/-- Releases, one by one, settle every item of the list. -/
theorem foldl_releases_books {ι : Type} {item : ι → Item} {f : State → ι → State} {p : Port}
    (h : ∀ (s : State) (i : ι) (H : Claims), s.Books (f s i) H (Claims.drop p (item i).only H)) :
    ∀ (l : List ι) (s : State) (H : Claims), s.Books (l.foldl f s) H (Claims.drop p (itemsOf (l.map item)) H)
  | [], s, H => by
    have hnone : Claims.drop p (itemsOf ([].map item)) H = H := by
      funext q j
      simp [Claims.drop, itemsOf]
    rw [hnone]
    exact (State.KeepsBooks.refl _).books H
  | i :: l, s, H => by
    have hboth : Claims.drop p (itemsOf ((i :: l).map item)) H = Claims.drop p (itemsOf (l.map item)) (Claims.drop p (item i).only H) := by
      funext q j
      simp only [Claims.drop, itemsOf, Item.only, List.map_cons, List.contains_cons, beq_eq_decide, Bool.and_or_distrib_left, Bool.not_or,
        Bool.and_assoc]
    rw [List.foldl_cons, hboth]
    exact (h s i H).trans (foldl_releases_books h l _ _)

/-! ## Cleared input (R48) -/

theorem State.clearInput_port (t : Target) (s : State) (p : Port) : (s.clearInput t).ports[p] =
    s.ports[p].suppressAll (s.keyStates[t].keysOf p) (s.keyStates[t].modsOf p) (s.keyStates[t].buttonsOf p) := updAll_get ..

theorem State.clearInput_suppressed (t : Target) (s : State) (p : Port) (i : Item) :
    (s.clearInput t).ports[p].suppressed i = (s.ports[p].suppressed i || s.keyStates[t].holds p i) := by
  rw [State.clearInput_port, ConsolePort.suppressAll_suppressed, KeyState.among_held]

/-- What is held at a target moves into the suppressed sets of the ports that hold it (R41, R48). -/
theorem State.clearInput_keeps (t : Target) (s : State) : s.KeepsBooks (s.clearInput t) := by
  refine ⟨fun H => ⟨id, fun h => ?_, fun p => ?_, fun h => h.changed t (fun u p i hu => ?_) fun p i hle => ?_⟩⟩
  · exact State.KeysSound.modKeys h (KeyState.initial_sound _)
  · rw [State.clearInput_port]
    rfl
  · show (upd s.keyStates t KeyState.clear)[u].holds p i = _
    rw [upd_get_ne _ _ _ _ hu]
  · have hclear : (s.clearInput t).keyStates[t].holds p i = false := by
      show (upd s.keyStates t KeyState.clear)[t].holds p i = false
      rw [upd_get, KeyState.clear_holds]
    have hmove : ∀ a b c : Bool, flagNum a + flagNum b ≤ flagNum c → flagNum (a || b) + flagNum false = flagNum a + flagNum b := by decide
    have := hmove _ _ _ hle
    rw [State.share, hclear, State.clearInput_suppressed]
    simp only [State.share]
    omega

/-! ## The focus switch (R51 to R53) -/

/-- The history after a switch is again sound (R51). -/
theorem pushHistory_sound {a b : Target} {h : List Target} (hnodup : h.Nodup) :
    (pushHistory a b h).length ≤ Config.historyDepth ∧ (pushHistory a b h).Nodup ∧ b ∉ pushHistory a b h := by
  unfold pushHistory
  refine ⟨List.length_take_le .., .sublist (List.take_sublist ..) (.sublist List.filter_sublist ?_), fun hb => ?_⟩
  · exact List.nodup_cons.2 ⟨by simp, hnodup.filter _⟩
  · have := (List.mem_filter.1 (List.mem_of_mem_take hb)).2
    simp at this

theorem State.has_following (s : State) (p : Port) : has s.following p = (s.pin p).isNone := has_maskOf ..

/-- The ports that follow focus leave the target's record (step 1 of R52). -/
theorem State.leave_delivers (a : Target) (s : State) : (s.modKeys a (KeyState.dropPorts s.following)).Delivers (s.leave a) := by
  unfold State.leave
  dsimp only
  split
  · exact State.announceView_delivers ..
  · exact (State.announceView_delivers ..).trans (State.buttonReport_delivers ..)

/-- What leaves the record is suppressed or carried along, but for the T_KEYS of a changed view (step 2 of R52). -/
def State.carriedOver (s before : State) (a b : Target) (trigger : ModSet) : State :=
  { s with
    ports := updAll s.ports fun p port =>
      if (before.pin p).isNone then
        port.suppressAll (before.keyStates[a].keysOf p) (minus (before.keyStates[a].modsOf p) (before.carried a b trigger p))
          (before.keyStates[a].buttonsOf p)
      else port
    keyStates := upd s.keyStates b (KeyState.carry (before.carried a b trigger)) }

theorem State.carryOver_delivers (s before : State) (a b : Target) (trigger : ModSet) :
    (s.carriedOver before a b trigger).Delivers (s.carryOver before a b trigger) := State.announceView_delivers ..

/-- The claims less what the following ports hold at a. -/
def State.claimsElsewhere (s : State) (a : Target) (H : Claims) : Claims := fun p i =>
  H p i && !((s.pin p).isNone && s.keyStates[a].holds p i)

theorem State.dropPorts_books (a : Target) (H : Claims) (s : State) :
    s.Books (s.modKeys a (KeyState.dropPorts s.following)) H (s.claimsElsewhere a H) := by
  refine State.modKeys_books (KeyState.dropPorts_sound _) fun p i hle => ?_
  have hbool : ∀ a b c f : Bool, flagNum a + flagNum b ≤ flagNum c →
      flagNum (b && !f) + flagNum c = flagNum b + flagNum (c && !(f && b)) := by decide
  rw [KeyState.dropPorts_holds, State.has_following]
  exact hbool _ _ _ _ hle

/-- The items that port p carries along in a switch from a to b. -/
def State.carriedItem (s : State) (a b : Target) (trigger : ModSet) (p : Port) : Item → Bool
  | .mod m => has (s.carried a b trigger p) m
  | .key _ => false
  | .button _ => false

theorem State.carry_carriedItem (s : State) (a b : Target) (trigger : ModSet) (p : Port) (i : Item) (ks : KeyState) :
    (ks.carry (s.carried a b trigger)).holds p i = (ks.holds p i || s.carriedItem a b trigger p i) := by
  rw [KeyState.carry_holds]
  cases i <;> rfl

/-- Carried items are held at a, by a following port. -/
theorem State.carriedItem_held {s : State} {a b : Target} {trigger : ModSet} {p : Port} {i : Item}
    (h : s.carriedItem a b trigger p i = true) : (s.pin p).isNone = true ∧ s.keyStates[a].holds p i = true := by
  cases i with
  | mod m =>
    simp only [State.carriedItem, State.carried] at h
    split at h
    · rename_i hcond
      rw [has_minus, KeyState.modsOf, has_maskOf] at h
      exact ⟨(Bool.and_eq_true_iff.1 hcond).1, (Bool.and_eq_true_iff.1 h).1⟩
    · exact absurd h (by simp [has])
  | key k => cases h
  | button b => cases h

/-- What leaves a without being carried along is suppressed. -/
theorem State.among_left (s : State) (a b : Target) (trigger : ModSet) (p : Port) (i : Item) :
    i.among (s.keyStates[a].keysOf p) (minus (s.keyStates[a].modsOf p) (s.carried a b trigger p)) (s.keyStates[a].buttonsOf p) =
      (s.keyStates[a].holds p i && !s.carriedItem a b trigger p i) := by
  rw [← KeyState.among_held]
  cases i <;> simp [Item.among, State.carriedItem]

theorem State.carriedOver_port (s before : State) (a b : Target) (trigger : ModSet) (p : Port) :
    (s.carriedOver before a b trigger).ports[p] = if (before.pin p).isNone then
      s.ports[p].suppressAll (before.keyStates[a].keysOf p) (minus (before.keyStates[a].modsOf p) (before.carried a b trigger p))
        (before.keyStates[a].buttonsOf p) else s.ports[p] := updAll_get ..

theorem State.carriedOver_share (s before : State) (a b : Target) (trigger : ModSet) (p : Port) (i : Item) :
    (s.carriedOver before a b trigger).share b p i =
      flagNum (if (before.pin p).isNone then
        s.ports[p].suppressed i || (before.keyStates[a].holds p i && !before.carriedItem a b trigger p i) else s.ports[p].suppressed i) +
      flagNum (s.keyStates[b].holds p i || before.carriedItem a b trigger p i) := by
  have htable : (s.carriedOver before a b trigger).keyStates[b] = s.keyStates[b].carry (before.carried a b trigger) := upd_get ..
  rw [State.share, htable, State.carriedOver_port, State.carry_carriedItem, ← State.among_left]
  cases (before.pin p).isNone with
  | true => rw [if_pos rfl, if_pos rfl, ConsolePort.suppressAll_suppressed]
  | false => rfl

/-- The items that left a are accounted for again, in the suppressed sets or at b (R41, R52). -/
theorem State.carriedOver_books {s before : State} {a b : Target} (trigger : ModSet) {H : Claims}
    (hH : ∀ (p : Port) (i : Item), before.keyStates[a].holds p i = true → H p i = true) :
    s.Books (s.carriedOver before a b trigger) (before.claimsElsewhere a H) H := by
  refine ⟨id, fun h => State.KeysSound.modKeys h (h b), fun p => ?_, fun h => h.changed b (fun u p i hu => ?_) fun p i hle => ?_⟩
  · rw [State.carriedOver_port]
    split <;> rfl
  · show (upd s.keyStates b _)[u].holds p i = _
    rw [upd_get_ne _ _ _ _ hu]
  · have hbool : ∀ f h c sup held H : Bool, (h = true → H = true) → (c = true → f = true ∧ h = true) →
        flagNum sup + flagNum held ≤ flagNum (H && !(f && h)) →
        flagNum (if f then sup || (h && !c) else sup) + flagNum (held || c) + flagNum (H && !(f && h)) =
          flagNum sup + flagNum held + flagNum H := by decide
    rw [State.carriedOver_share]
    exact hbool _ _ _ _ _ _ (hH p i) State.carriedItem_held hle

theorem State.AccountsFor.claimed {s : State} {H : Claims} (h : s.AccountsFor H) {t : Target} {p : Port} {i : Item}
    (hi : s.keyStates[t].holds p i = true) : H p i = true := by
  by_contra hH
  rw [(h.unclaimed (by simpa using hH)).2 t] at hi
  cases hi

/-- The account through a change at a and its counterpart, which may use that what a holds is claimed. -/
theorem State.KeepsBooks.of_claims {s t : State} (h : ∀ H : Claims,
    (∀ (u : Target) (p : Port) (i : Item), s.keyStates[u].holds p i = true → H p i = true) → s.Books t H H) : s.KeepsBooks t := by
  obtain ⟨hhistory, hkeys, hpresent, -⟩ := h (fun _ _ => true) fun _ _ _ _ => rfl
  exact ⟨fun H => ⟨hhistory, hkeys, hpresent, fun hs => (h H fun _ _ _ => hs.claimed).account hs⟩⟩

/-- Steps 3 to 6 of R53 make b the focus target and a the newest of its history. -/
theorem State.arrive_keeps {a b : Target} (c : Cause) (r : Region) {s : State} :
    s.KeepsBooks (s.arrive a b c r) := by
  have hfocus : s.KeepsBooks { s with
      focus := { s.focus with target := b, cause := c, region := r, history := pushHistory a b s.focus.history }
      glide := { s.glide with pressure := none } } :=
    ⟨fun _ => ⟨fun h => pushHistory_sound h.2.1, id, fun _ => rfl, id⟩⟩
  refine hfocus.trans (State.Delivers.keeps ?_)
  unfold State.arrive
  dsimp only
  split
  · refine State.Delivers.trans ?_ (State.wakeRequest_delivers ..)
    rfl
  · rfl

/-- A focus switch keeps the account: what the following ports held at the old target is suppressed or carried to the new one. -/
theorem State.switchTo_keeps (b : Target) (c : Cause) (trigger : ModSet) (r : Region) (s : State) :
    s.KeepsBooks (s.switchTo b c trigger r) := by
  unfold State.switchTo
  dsimp only
  split
  · exact .refl s
  · rename_i hb
    have hleave := s.leave_delivers s.focus.target
    have hcarry := State.carryOver_delivers (s.leave s.focus.target) s s.focus.target b trigger
    have hcarried : s.KeepsBooks ((s.leave s.focus.target).carryOver s s.focus.target b trigger) := .of_claims fun H hH =>
      ((s.dropPorts_books s.focus.target H).trans (hleave.keeps.books _)).trans
        ((State.carriedOver_books trigger fun p i => hH s.focus.target p i).trans (hcarry.keeps.books _))
    exact hcarried.trans (State.arrive_keeps c r)

end Sys2Proof.Machine
end

section
/-! SUPPORT. The account through focus changes, hotkeys, pointer events and the entries of the merge engine (R30 to R35, R58 to R91). -/

namespace Sys2Proof.Machine

/-! ## Focus changes and hotkeys -/

theorem State.switch_keeps (b : Target) (c : Cause) (trigger : ModSet) (r : Region) (s : State) :
    s.KeepsBooks (s.switch b c trigger r) := by
  unfold State.switch
  split
  · exact .refl s
  · exact (s.switchTo_keeps b c trigger r).trans (State.entry_delivers ..).keeps

theorem State.directed_keeps (t : Target) (c : Cause) (trigger : ModSet) (s : State) : s.KeepsBooks (s.directed t c trigger) := by
  unfold State.directed
  split
  · exact (.of_ledger rfl : s.KeepsBooks (s.warp _)).trans ((State.switch_keeps ..).trans (.of_ledger rfl))
  · split
    · exact .refl s
    · exact (.of_ledger rfl : s.KeepsBooks (s.detach t)).trans ((State.switch_keeps ..).trans (.of_ledger rfl))

theorem State.reevaluate_keeps (c : Cause) (trigger : ModSet) (s : State) : s.KeepsBooks (s.reevaluate c trigger) := by
  have hrecorded : s.KeepsBooks s.recordRegion := .of_ledger rfl
  unfold State.reevaluate
  dsimp only
  split
  · exact hrecorded
  · split
    · exact hrecorded
    · split
      · exact hrecorded
      · exact hrecorded.trans (State.switch_keeps ..)

theorem State.focusAction_keeps (e : HotkeyEntry) (trigger : ModSet) (t : Target) (s : State) :
    s.KeepsBooks (s.focusAction e trigger t) := by
  unfold State.focusAction
  split
  · exact .refl s
  · exact State.directed_keeps ..

theorem State.windowToggle_keeps (w : Window) (trigger : ModSet) (s : State) : s.KeepsBooks (s.windowToggle w trigger) := by
  unfold State.windowToggle
  split
  · exact (.of_ledger rfl : s.KeepsBooks (s.modWindow w _)).trans (State.reevaluate_keeps ..)
  · exact .refl s

theorem State.applyPreset_keeps (e : HotkeyEntry) (trigger : ModSet) (s : State) : s.KeepsBooks (s.applyPreset e trigger) := by
  have hshown : s.KeepsBooks (s.setShown s.presets[e.arg8].windows) := .of_ledger rfl
  unfold State.applyPreset
  dsimp only
  split
  · split
    · exact hshown
    · exact hshown.trans (State.reevaluate_keeps ..)
  · split
    · exact hshown.trans (State.reevaluate_keeps ..)
    · exact hshown.trans (State.directed_keeps ..)

theorem State.fire_keeps (e : HotkeyEntry) (trigger : ModSet) (s : State) : s.KeepsBooks (s.fire e trigger) := by
  unfold State.fire
  split
  · exact State.focusAction_keeps ..
  · split
    · exact State.focusAction_keeps ..
    · exact .refl s
  · split
    · exact State.focusAction_keeps ..
    · exact .refl s
  · exact .of_ledger rfl
  · exact .of_ledger rfl
  · exact State.windowToggle_keeps ..
  · exact State.applyPreset_keeps ..
  · exact (State.wakeRequest_delivers ..).keeps
  · exact .of_ledger rfl

/-! ## The detector (R64 to R71) -/

theorem State.setDetector_keeps (d : Detector) (s : State) : s.KeepsBooks (s.setDetector d) := .of_ledger rfl

theorem State.settlePress_books {p : Port} {i : KeyItem} {H : Claims} (e : HotkeyEntry) (s : State) (hi : H p i.item = false) :
    s.Books (s.settlePress e p i) H (Claims.add p i.item.only H) := by
  unfold State.settlePress
  split
  · exact s.keyPress_books _ hi
  · exact s.suppressItem_books hi

theorem State.pressIdle_books {p : Port} {i : KeyItem} {H : Claims} (held : ModSet) (s : State) (hi : H p i.item = false) :
    s.Books (s.pressIdle p i held).1 H (Claims.add p i.item.only H) := by
  unfold State.pressIdle
  split
  · rename_i e _
    exact (((s.setDetector_keeps _).trans (State.fire_keeps ..)).books H).trans (State.settlePress_books e _ hi)
  · exact ((s.setDetector_keeps _).books H).trans (State.keyPress_books _ _ hi)

/-- A press the detector takes, fired, consumed or handed on, accounts for its item (R41, R64). -/
theorem State.detectPress_books {p : Port} {i : KeyItem} {H : Claims} (held : ModSet) (s : State) (hi : H p i.item = false) :
    s.Books (s.detectPress p i held).1 H (Claims.add p i.item.only H) := by
  have hclear := s.setDetector_keeps Detector.initial
  unfold State.detectPress
  split
  · exact s.pressIdle_books held hi
  · unfold State.pressTapWait
    dsimp only
    split
    · exact ((hclear.trans (State.fire_keeps ..)).books H).trans (State.keyPress_books _ _ hi)
    · exact (hclear.books H).trans (State.pressIdle_books held _ hi)
  · unfold State.pressLeader
    dsimp only
    split
    · rename_i e _
      exact ((hclear.trans (State.fire_keeps ..)).books H).trans (State.settlePress_books e _ hi)
    · exact (hclear.books H).trans (State.pressIdle_books held _ hi)

theorem State.handRelease_books (p : Port) (s : State) (i : KeyItem) (H : Claims) :
    s.Books (s.handRelease p i) H (Claims.drop p i.item.only H) := by
  unfold State.handRelease
  split
  · unfold State.detectRelease
    dsimp only
    split
    · exact ((s.setDetector_keeps _).books H).trans (State.keyRelease_books ..)
    · exact s.keyRelease_books p i H
  · exact s.keyRelease_books p i H

theorem State.handOnPress_books (p : Port) (mods : ModSet) (a : State × Bool) (i : KeyItem) (H : Claims) (hi : H p i.item = false) :
    a.1.Books (State.handOnPress p mods a i).1 H (Claims.add p i.item.only H) := by
  unfold State.handOnPress
  split
  · exact State.keyPress_books _ _ hi
  · split
    · exact State.suppressItem_books _ hi
    · exact State.detectPress_books _ _ hi

/-! ## What is held down stands apart from the account -/

/-- From s to t nothing of the ledger changes but what is held down on the ports. -/
def State.SameBooks (s t : State) : Prop := t.ledger = { s.ledger with present := t.ledger.present }

theorem State.SameBooks.refl (s : State) : s.SameBooks s := rfl

theorem State.SameBooks.history {s t : State} (h : s.SameBooks t) (hs : s.HistorySound) : t.HistorySound := by
  simp only [State.SameBooks, State.ledger, Ledger.mk.injEq] at h
  obtain ⟨htarget, hhistory, -⟩ := h
  rw [State.HistorySound, htarget, hhistory]
  exact hs

theorem State.SameBooks.keys {s t : State} (h : s.SameBooks t) (hs : s.KeysSound) : t.KeysSound := by
  simp only [State.SameBooks, State.ledger, Ledger.mk.injEq] at h
  obtain ⟨-, -, -, -, hkeys⟩ := h
  rw [State.KeysSound, hkeys]
  exact hs

theorem State.SameBooks.accounts {s t : State} (h : s.SameBooks t) : t.accounts = s.accounts := by
  simp only [State.SameBooks, State.ledger, Ledger.mk.injEq, funext_iff] at h
  obtain ⟨-, -, -, hrefused, hkeys⟩ := h
  funext p i
  simp only [State.accounts, ConsolePort.suppressed_congr (hrefused p), hkeys]

/-- A changed port that keeps its suppressed set leaves the ledger but for what is held down. -/
theorem State.modPort_sameBooks {p : Port} {f : ConsolePort → ConsolePort} (h : ∀ c, (f c).refused = c.refused) (s : State) :
    s.SameBooks (s.modPort p f) := by
  have hr : (s.modPort p f).ledger.refused = s.ledger.refused := funext fun q => by
    show (upd s.ports p f)[q].refused = s.ports[q].refused
    rw [upd_get_eq]
    split
    · exact h _
    · rfl
  show ({ (s.modPort p f).ledger with refused := (s.modPort p f).ledger.refused } : Ledger) = _
  rw [hr]
  rfl

/-! ## Pointer events (R47, R81, R91) -/

/-- The items of a button set. -/
def ButtonSet.items (b : ButtonSet) : Item → Bool := Item.among [] 0 b

theorem itemsOf_buttons (b : ButtonSet) : itemsOf ((members b).map Item.button) = ButtonSet.items b := by
  funext i
  rw [Bool.eq_iff_iff]
  cases i with
  | button j => simp [itemsOf, ButtonSet.items, Item.among, mem_members]
  | key k => simp [itemsOf, ButtonSet.items, Item.among]
  | mod m => simp [itemsOf, ButtonSet.items, Item.among, has]

/-- The claims after a pointer event: its releases settled, its presses added. -/
def PointerEvent.claims (e : PointerEvent) (H : Claims) : Claims :=
  Claims.add e.port (ButtonSet.items e.presses) (Claims.drop e.port (ButtonSet.items e.releases) H)

theorem State.setHeld_port (p : Port) (b : ButtonSet) (s : State) (q : Port) :
    (s.setHeld p b).ports[q] = if q = p then { s.ports[q] with held := b } else s.ports[q] := upd_get_eq ..

theorem State.setHeld_sameBooks (p : Port) (b : ButtonSet) (s : State) : s.SameBooks (s.setHeld p b) :=
  State.modPort_sameBooks (f := fun q => { q with held := b }) (fun _ => rfl) s

/-- The same held set given before and after. -/
theorem State.Books.setHeld {s t : State} {H H' : Claims} (h : s.Books t H H') (p : Port) (b : ButtonSet) :
    (s.setHeld p b).Books (t.setHeld p b) H H' := by
  refine ⟨h.history, h.keys, fun q => ?_, fun hs => ?_⟩
  · have := h.present q
    simp only [ConsolePort.present, Prod.mk.injEq] at this
    obtain ⟨hm, hk, hb⟩ := this
    rw [State.setHeld_port, State.setHeld_port]
    split <;> simp only [ConsolePort.present, hm, hk, hb]
  · rw [State.AccountsFor, (State.setHeld_sameBooks ..).accounts] at hs ⊢
    exact h.account hs

/-- A held set given once more, as it stands, changes nothing. -/
theorem State.Books.setHeld_again {s t : State} {H H' : Claims} {p : Port} {b : ButtonSet} (h : (s.setHeld p b).Books t H H') :
    (s.setHeld p b).Books (t.setHeld p b) H H' := by
  have htwice : (s.setHeld p b).setHeld p b = s.setHeld p b := by
    simp only [State.setHeld, State.modPort, upd_upd]
    rfl
  exact htwice ▸ h.setHeld p b

theorem State.accountButtons_books {e : PointerEvent} (dest : Option Target) {H : Claims} (s : State)
    (hpress : ∀ b : Button, has e.presses b = true → H e.port (.button b) = false) :
    (s.setHeld e.port e.buttons).Books (s.accountButtons e dest) H (e.claims H) := by
  have hreleases := foldl_releases_books (item := Item.button) (f := fun acc b => acc.buttonRelease e.port b) (p := e.port)
    (fun s b H => s.releaseItem_books e.port (.button b) H) (members e.releases) (s.setHeld e.port e.buttons) H
  have hpresses := foldl_presses_books (state := id) (item := Item.button) (f := fun acc b => acc.buttonPress e.port dest b) (p := e.port)
    (fun s b H => State.buttonPress_books dest s) (members e.presses)
    ((members e.releases).foldl (fun acc b => acc.buttonRelease e.port b) (s.setHeld e.port e.buttons))
    (Claims.drop e.port (itemsOf ((members e.releases).map Item.button)) H)
    ((members_nodup _).map fun _ _ h => Item.button.inj h) fun b hb => by
      rw [Claims.drop, hpress b ((mem_members ..).1 hb), Bool.false_and]
  rw [itemsOf_buttons] at hreleases hpresses
  rw [itemsOf_buttons] at hpresses
  exact hreleases.trans hpresses

theorem State.buttonReports_delivers (before : State) (receiver : Target) (s : State) :
    s.Delivers (State.buttonReports before receiver s) :=
  State.foldl_delivers (fun x t => x.buttonReport_delivers t) _ s

/-- Stages 4 and 5 deliver reports beyond the accounting of the buttons. -/
theorem State.buttonsAndReport_delivers (e : PointerEvent) (dest : Option Target) (receiver : Target) (q : Option (Nat × Nat))
    (entry : Bool) (s : State) : (s.accountButtons e dest).Delivers (s.buttonsAndReport e dest receiver q entry) := by
  unfold State.buttonsAndReport
  cases q with
  | some q => exact (State.buttonReports_delivers ..).trans (State.pointerReport_delivers ..)
  | none => exact State.buttonReports_delivers ..

theorem State.completeRelease_keeps (e : PointerEvent) (s : State) : s.KeepsBooks (s.completeRelease e) := by
  unfold State.completeRelease
  split
  · exact State.reevaluate_keeps ..
  · exact .refl s

theorem State.settle_keeps (sx sy : Int) (s : State) : s.KeepsBooks (s.settle sx sy).1 := by
  have haway : (s.awayTest sx sy).ledger = s.ledger := by
    unfold State.awayTest
    split
    · split <;> rfl
    · rfl
  refine .of_ledger ?_
  unfold State.settle
  dsimp only
  split
  · unfold State.settleFrom
    dsimp only
    repeat' split
    all_goals exact haway
  · exact haway

theorem State.followRegion_keeps (crossed : Bool) (s : State) : s.KeepsBooks (s.followRegion crossed) := by
  have hrecorded : s.KeepsBooks s.recordRegion := .of_ledger rfl
  unfold State.followRegion
  dsimp only
  split
  · exact hrecorded
  split
  · exact hrecorded
  split
  · exact hrecorded.trans (State.switchTo_keeps ..)
  split
  · exact hrecorded
  · exact hrecorded.trans (State.switchTo_keeps ..)

/-- A pointer event settles its releases and accounts for its presses; the held set is the event's (R33, R47). -/
theorem State.pointerEvent_books {e : PointerEvent} {H : Claims} (s : State)
    (hpress : ∀ b : Button, has e.presses b = true → H e.port (.button b) = false) :
    (s.setHeld e.port e.buttons).Books (s.pointerEvent e) H (e.claims H) := by
  have hbuttons : ∀ (x : State) dest receiver q entry,
      (x.setHeld e.port e.buttons).Books (x.buttonsAndReport e dest receiver q entry) H (e.claims H) := fun x dest receiver q entry =>
    (x.accountButtons_books dest hpress).trans ((State.buttonsAndReport_delivers ..).keeps.books _)
  unfold State.pointerEvent
  split
  · rename_i t _
    unfold State.pinnedMotion
    dsimp only
    refine State.Books.trans ?_ (hbuttons ..)
    exact (State.KeepsBooks.of_ledger (by rfl)).books H
  split
  · unfold State.detachedMotion
    dsimp only
    refine State.Books.trans (State.Books.trans ?_ (hbuttons ..)) ((State.completeRelease_keeps ..).books _)
    exact (State.KeepsBooks.of_ledger (by rfl)).books H
  · unfold State.followingMotion
    dsimp only
    refine State.Books.trans (State.Books.trans ?_ (hbuttons ..)) ((State.completeRelease_keeps ..).books _)
    exact (((State.settle_keeps ..).trans (State.followRegion_keeps ..)).books H).setHeld _ _

theorem State.handButtonReleases_books (p : Port) (b releases : ButtonSet) (H : Claims) (s : State) :
    (s.setHeld p b).Books ((s.handButtonReleases p b releases).setHeld p b) H (Claims.drop p (ButtonSet.items releases) H) := by
  have hnone : ∀ x : Item, ButtonSet.items 0 x = false := fun x => by cases x <;> simp [ButtonSet.items, Item.among, has]
  unfold State.handButtonReleases
  split
  · rename_i h
    have hdrop : Claims.drop p (ButtonSet.items releases) H = H := by
      funext q i
      rw [Claims.drop, h, hnone, Bool.and_false, Bool.not_false, Bool.and_true]
    rw [hdrop]
    exact (State.KeepsBooks.refl _).books H
  · have hevent := State.pointerEvent_books (e := ⟨p, 0, 0, 0, b, releases, 0⟩) (H := H) s fun b hb => by simp [has] at hb
    have hclaims : PointerEvent.claims ⟨p, 0, 0, 0, b, releases, 0⟩ H = Claims.drop p (ButtonSet.items releases) H := by
      funext q i
      rw [PointerEvent.claims, Claims.add, hnone, Bool.and_false, Bool.or_false]
    exact hclaims ▸ hevent.setHeld_again

/-! ## Entries of the merge engine (R31 to R35) -/

/-- The items held down on the console ports, each on its port (R41). -/
def State.holdings (s : State) : Claims := fun p => s.ports[p].holding

/-- History, key-state tables and account stay sound from s to t. -/
structure State.KeepsRecord (s t : State) : Prop where
  history : s.HistorySound → t.HistorySound
  keys    : s.KeysSound → t.KeysSound
  account : s.AccountExact → t.AccountExact

theorem State.KeepsRecord.trans {s t u : State} (h : s.KeepsRecord t) (k : t.KeepsRecord u) : s.KeepsRecord u :=
  ⟨k.history ∘ h.history, k.keys ∘ h.keys, k.account ∘ h.account⟩

theorem State.KeepsRecord.refl (s : State) : s.KeepsRecord s := ⟨id, id, id⟩

theorem State.holdings_congr {s t : State} (h : ∀ p : Port, t.ports[p].present = s.ports[p].present) : t.holdings = s.holdings :=
  funext fun p => ConsolePort.holding_congr (h p)

/-- An account kept exact for every claim is kept exact for what is held down. -/
theorem State.KeepsBooks.record {s t : State} (h : s.KeepsBooks t) : s.KeepsRecord t := by
  obtain ⟨hhistory, hkeys, hpresent, haccount⟩ := h.books s.holdings
  refine ⟨hhistory, hkeys, fun hs => ?_⟩
  have ht : t.AccountsFor s.holdings := haccount hs
  rw [← State.holdings_congr hpresent] at ht
  exact ht

theorem State.KeepsRecord.of_ledger {s t : State} (h : t.ledger = s.ledger) : s.KeepsRecord t := (State.KeepsBooks.of_ledger h).record

/-- An account exact for what is held down at s becomes one exact for H at t, and H is what is held down at u; between s and x, and between
t and u, only what is held down changes. -/
theorem State.Books.record {s x t u : State} {H : Claims} (h : x.Books t s.holdings H) (hx : s.SameBooks x) (hu : t.SameBooks u)
    (hH : t.AccountsFor H → u.holdings = H) : s.KeepsRecord u := by
  refine ⟨fun hs => hu.history (h.history (hx.history hs)), fun hs => hu.keys (h.keys (hx.keys hs)), fun hs p i => ?_⟩
  have ht : t.AccountsFor H := h.account fun q j => by rw [hx.accounts]; exact hs q j
  rw [hu.accounts, ht p i, ← hH ht]
  rfl

end Sys2Proof.Machine
end

section
/-! PROOFS. Every command keeps history, key-state tables and account sound (O57, O58). -/

namespace Sys2Proof.Machine

/-! ## The entries of the merge engine (R31 to R35) -/

theorem mem_cleanKeys_nodup (list : List Key) : (cleanKeys list).Nodup := (firstAppearances_spec _ []).1

/-- The keys and modifiers of a list of each, as items. -/
theorem itemsOf_keysMods (keys : List Key) (mods : ModSet) : itemsOf ((keys.map KeyItem.key ++ (members mods).map KeyItem.mod).map KeyItem.item) =
    Item.among keys mods 0 := by
  funext i
  rw [Bool.eq_iff_iff]
  cases i <;> simp [itemsOf, Item.among, KeyItem.item, mem_members, has]

theorem itemsOf_modsKeys (keys : List Key) (mods : ModSet) : itemsOf (((members mods).map KeyItem.mod ++ keys.map KeyItem.key).map KeyItem.item) =
    Item.among keys mods 0 := by
  funext i
  rw [Bool.eq_iff_iff]
  cases i <;> simp [itemsOf, Item.among, KeyItem.item, mem_members, has]

theorem ConsolePort.holding_eq_among (c : ConsolePort) : c.holding = Item.among c.snapKeys c.snapMods c.held := by
  funext i
  cases i <;> rfl

/-- What is held down after a port's present state was set to one of the given keys, modifiers and buttons. -/
theorem State.holdings_eq {s u : State} {p : Port} {keys : List Key} {mods : ModSet} {buttons : ButtonSet}
    (hp : u.ports[p].present = (mods, keys, buttons)) (hother : ∀ q : Port, q ≠ p → u.ports[q].present = s.ports[q].present) :
    u.holdings = fun q => if q = p then Item.among keys mods buttons else s.holdings q := by
  funext q
  by_cases h : q = p
  · subst h
    simp only [ConsolePort.present, Prod.mk.injEq] at hp
    obtain ⟨hm, hk, hb⟩ := hp
    rw [if_pos rfl, State.holdings, ConsolePort.holding_eq_among, hm, hk, hb]
  · rw [if_neg h, State.holdings, ConsolePort.holding_congr (hother q h)]
    rfl

theorem State.modPort_present {p : Port} {f : ConsolePort → ConsolePort} {s x : State} (hx : ∀ q : Port, x.ports[q].present = s.ports[q].present)
    (q : Port) (hq : q ≠ p) : (x.modPort p f).ports[q].present = s.ports[q].present := by
  rw [State.modPort_ports, upd_get_ne _ _ _ _ hq, hx]

/-- The items that a C_KEYS entry finds released (R31). -/
def ConsolePort.leaving (mods : ModSet) (clean : List Key) (c : ConsolePort) : Item → Bool :=
  Item.among (c.snapKeys.filter fun k => !clean.contains k) (minus c.snapMods mods) 0

/-- The items that a C_KEYS entry finds pressed (R31). -/
def ConsolePort.joining (mods : ModSet) (clean : List Key) (c : ConsolePort) : Item → Bool :=
  Item.among (c.pressedKeys clean) (minus mods c.snapMods) 0

/-- What is held down after a C_KEYS entry: what was, less the releases, with the presses. -/
theorem ConsolePort.among_taken (mods : ModSet) (clean : List Key) (c : ConsolePort) (i : Item) :
    i.among clean mods c.held = (c.holding i && !c.leaving mods clean i || c.joining mods clean i) := by
  rw [ConsolePort.holding_eq_among]
  cases i with
  | key k =>
    rw [Bool.eq_iff_iff]
    simp [Item.among, ConsolePort.leaving, ConsolePort.joining, ConsolePort.pressedKeys]
    tauto
  | mod m =>
    simp only [Item.among, ConsolePort.leaving, ConsolePort.joining, has_minus]
    cases has mods m <;> cases has c.snapMods m <;> rfl
  | button b => simp [Item.among, ConsolePort.leaving, ConsolePort.joining, has]

theorem ConsolePort.holding_of_joining {mods : ModSet} {clean : List Key} {c : ConsolePort} {i : Item}
    (h : c.joining mods clean i = true) : c.holding i = false := by
  cases i with
  | key k => simpa [ConsolePort.holding] using (List.mem_filter.1 (List.contains_iff_mem.1 h)).2
  | mod m =>
    have h : has (minus mods c.snapMods) m = true := h
    rw [has_minus, Bool.and_eq_true, Bool.not_eq_true'] at h
    exact h.2
  | button b => simp [ConsolePort.joining, Item.among, has] at h

/-- The presses of a C_KEYS entry, of the keys and then the modifiers (R31). -/
def ConsolePort.pressesFor (mods : ModSet) (clean : List Key) (c : ConsolePort) : List KeyItem :=
  (c.pressedKeys clean).map KeyItem.key ++ (members (minus mods c.snapMods)).map KeyItem.mod

theorem ConsolePort.pressesFor_nodup (mods : ModSet) {clean : List Key} (h : clean.Nodup) (c : ConsolePort) :
    ((c.pressesFor mods clean).map KeyItem.item).Nodup := by
  rw [ConsolePort.pressesFor, List.map_append, List.map_map, List.map_map, List.nodup_append]
  refine ⟨(h.filter _).map fun _ _ e => Item.key.inj e, (members_nodup _).map fun _ _ e => Item.mod.inj e, fun a ha b hb => ?_⟩
  obtain ⟨k, -, rfl⟩ := List.mem_map.1 ha
  obtain ⟨m, -, rfl⟩ := List.mem_map.1 hb
  exact nofun

/-- The releases of a C_KEYS entry taken. -/
def State.keysReleased (p : Port) (mods : ModSet) (clean : List Key) (s : State) : State :=
  (s.ports[p].releasesFor mods clean).foldl (State.handRelease p) s

/-- Its presses taken, from the state x that the releases left: suppressed when it is swallowed (R35). -/
def State.keysPressed (p : Port) (mods : ModSet) (clean : List Key) (swallowed : Bool) (s x : State) : State :=
  if swallowed then x.modPort p (ConsolePort.suppressAll (s.ports[p].pressedKeys clean) (minus mods s.ports[p].snapMods) 0)
  else ((s.ports[p].pressesFor mods clean).foldl (State.handOnPress p mods) (x, false)).1

theorem State.takeKeys_eq (p : Port) (mods : ModSet) (list : List Key) (swallowed : Bool) (s : State) : s.takeKeys p mods list swallowed =
    (s.keysPressed p mods (cleanKeys list) swallowed (s.keysReleased p mods (cleanKeys list))).modPort p fun q =>
      { q with snapMods := mods, snapKeys := cleanKeys list, inChord := true } := rfl

theorem State.keysReleased_books (p : Port) (mods : ModSet) (clean : List Key) (H : Claims) (s : State) :
    s.Books (s.keysReleased p mods clean) H (Claims.drop p (s.ports[p].leaving mods clean) H) := by
  have h := foldl_releases_books (fun x i H => State.handRelease_books p x i H) (s.ports[p].releasesFor mods clean) s H
  rw [ConsolePort.releasesFor, itemsOf_modsKeys] at h
  exact h

theorem State.keysPressed_books {p : Port} {mods : ModSet} {clean : List Key} (swallowed : Bool) {H : Claims} (s x : State)
    (hclean : clean.Nodup) (hH : ∀ i : Item, s.ports[p].joining mods clean i = true → H p i = false) :
    x.Books (s.keysPressed p mods clean swallowed x) H (Claims.add p (s.ports[p].joining mods clean) H) := by
  cases swallowed with
  | true => exact State.suppress_books _ (fun _ => rfl) (fun c i => ConsolePort.suppressAll_suppressed ..) hH
  | false =>
    have h := foldl_presses_books (state := Prod.fst) (fun a i H => State.handOnPress_books p mods a i H)
      (s.ports[p].pressesFor mods clean) (x, false) H (ConsolePort.pressesFor_nodup mods hclean _) fun i hi => hH _ (by
        rw [ConsolePort.joining, ← itemsOf_keysMods, itemsOf, List.contains_iff_mem]
        exact List.mem_map_of_mem hi)
    rw [ConsolePort.pressesFor, itemsOf_keysMods] at h
    exact h

/-- A C_KEYS entry (R31, R35): the items that left the snapshot are released, and those that joined it pressed or suppressed. -/
theorem State.takeKeys_keeps (p : Port) (mods : ModSet) (list : List Key) (swallowed : Bool) (s : State) :
    s.KeepsRecord (s.takeKeys p mods list swallowed) := by
  have htaken := (s.keysReleased_books p mods (cleanKeys list) s.holdings).trans
    (State.keysPressed_books (p := p) (mods := mods) swallowed s (s.keysReleased p mods (cleanKeys list)) (mem_cleanKeys_nodup list) fun i hi => by
      rw [Claims.drop, State.holdings, ConsolePort.holding_of_joining hi, Bool.false_and])
  rw [State.takeKeys_eq]
  generalize s.keysPressed p mods (cleanKeys list) swallowed (s.keysReleased p mods (cleanKeys list)) = x at htaken ⊢
  refine htaken.record (.refl s) (State.modPort_sameBooks (by exact fun _ => rfl) _) fun _ => ?_
  have hheld : x.ports[p].held = s.ports[p].held := congrArg (fun y => y.2.2) (htaken.present p)
  rw [State.holdings_eq (p := p) (s := s) (by rw [State.modPort_ports, upd_get, ConsolePort.present]) (State.modPort_present htaken.present)]
  funext q i
  simp only [Claims.add, Claims.drop]
  by_cases hq : q = p
  · subst hq
    rw [if_pos rfl, decide_eq_true rfl, Bool.true_and, Bool.true_and, hheld, ConsolePort.among_taken]
    rfl
  · rw [if_neg hq, decide_eq_false hq, Bool.false_and, Bool.false_and, Bool.not_false, Bool.and_true, Bool.or_false]

/-- What is held down when a port's button set becomes b: what was, less the buttons released, with those pressed (R33). -/
theorem State.setHeld_holdings {s t : State} {p : Port} {b : ButtonSet} (h : ∀ q : Port, t.ports[q].present = (s.setHeld p b).ports[q].present) :
    t.holdings = Claims.add p (ButtonSet.items (minus b s.ports[p].held))
      (Claims.drop p (ButtonSet.items (minus s.ports[p].held b)) s.holdings) := by
  funext q i
  rw [State.holdings_congr h, State.holdings, State.setHeld_port]
  simp only [Claims.add, Claims.drop]
  by_cases hq : q = p
  · subst hq
    rw [if_pos rfl, decide_eq_true rfl, Bool.true_and, Bool.true_and, State.holdings]
    cases i with
    | button j =>
      show has b j = (has s.ports[q].held j && !has (minus s.ports[q].held b) j || has (minus b s.ports[q].held) j)
      rw [has_minus, has_minus]
      cases has b j <;> cases has s.ports[q].held j <;> rfl
    | key k => simp [ButtonSet.items, Item.among, ConsolePort.holding]
    | mod m => simp [ButtonSet.items, Item.among, ConsolePort.holding, has]
  · rw [if_neg hq, decide_eq_false hq, Bool.false_and, Bool.false_and, Bool.not_false, Bool.and_true, Bool.or_false]
    rfl

theorem ButtonSet.items_unheld {p : Port} {b : ButtonSet} {s : State} {i : Item}
    (h : ButtonSet.items (minus b s.ports[p].held) i = true) : s.holdings p i = false := by
  cases i with
  | button j =>
    have h : has (minus b s.ports[p].held) j = true := h
    rw [has_minus, Bool.and_eq_true, Bool.not_eq_true'] at h
    exact h.2
  | key k => cases h
  | mod m => simp [ButtonSet.items, Item.among, has] at h

/-- Releases and presses of one event are of different buttons, so that either may come first. -/
theorem Claims.add_drop_buttons (p : Port) (a b : ButtonSet) (H : Claims) :
    Claims.drop p (ButtonSet.items (minus a b)) (Claims.add p (ButtonSet.items (minus b a)) H) =
      Claims.add p (ButtonSet.items (minus b a)) (Claims.drop p (ButtonSet.items (minus a b)) H) := by
  have hdisjoint : ∀ i : Item, (ButtonSet.items (minus b a) i && ButtonSet.items (minus a b) i) = false := fun i => by
    cases i with
    | button j =>
      show (has (minus b a) j && has (minus a b) j) = false
      rw [has_minus, has_minus]
      cases has a j <;> cases has b j <;> rfl
    | key k => rfl
    | mod m => simp [ButtonSet.items, Item.among, has]
  have hbool : ∀ h at' x y : Bool, (x && y) = false → ((h || (at' && x)) && !(at' && y)) = ((h && !(at' && y)) || (at' && x)) := by decide
  funext q i
  exact hbool _ _ _ _ (hdisjoint i)

/-- A C_MOTION entry (R33, R35): its released buttons are released, its pressed ones pressed or suppressed. -/
theorem State.takeMotion_keeps (p : Port) (dx dy wheel : Int) (b : ButtonSet) (swallowed : Bool) (s : State) :
    s.KeepsRecord (s.takeMotion p dx dy wheel b swallowed) := by
  have htaken : (s.setHeld p b).Books (s.takeMotion p dx dy wheel b swallowed) s.holdings
      (Claims.add p (ButtonSet.items (minus b s.ports[p].held)) (Claims.drop p (ButtonSet.items (minus s.ports[p].held b)) s.holdings)) := by
    cases swallowed with
    | false =>
      exact (State.pointerEvent_books (e := ⟨p, dx, dy, wheel, b, minus s.ports[p].held b, minus b s.ports[p].held⟩) s
        fun j hj => ButtonSet.items_unheld (b := b) hj).setHeld_again
    | true =>
      have hsuppress : s.Books (s.modPort p (ConsolePort.suppressAll [] 0 (minus b s.ports[p].held))) s.holdings
          (Claims.add p (ButtonSet.items (minus b s.ports[p].held)) s.holdings) :=
        s.suppress_books (fun _ => rfl) (fun c i => ConsolePort.suppressAll_suppressed ..) fun i hi => ButtonSet.items_unheld hi
      rw [← Claims.add_drop_buttons]
      exact (hsuppress.setHeld p b).trans (State.handButtonReleases_books p b _ _ _)
  exact htaken.record (s.setHeld_sameBooks p b) (.refl _) fun _ => State.setHeld_holdings htaken.present

/-- The items of a snapshot released, one by one (R34). -/
def State.snapshotReleased (p : Port) (s : State) : State :=
  ((members s.ports[p].snapMods).map KeyItem.mod ++ s.ports[p].snapKeys.map KeyItem.key).foldl (State.handRelease p) s

/-- A port's snapshot, held buttons and suppressed set emptied (R34). -/
def ConsolePort.emptied (c : ConsolePort) : ConsolePort :=
  { c with snapMods := 0, snapKeys := [], held := 0, supKeys := [], supMods := 0, supButtons := 0, inChord := true }

theorem State.takeReleaseAll_eq (p : Port) (s : State) : s.takeReleaseAll p =
    ((s.snapshotReleased p).handButtonReleases p 0 s.ports[p].held).modPort p ConsolePort.emptied := rfl

theorem State.snapshotReleased_books (p : Port) (H : Claims) (s : State) :
    s.Books (s.snapshotReleased p) H (Claims.drop p (Item.among s.ports[p].snapKeys s.ports[p].snapMods 0) H) := by
  have h := foldl_releases_books (fun x i H => State.handRelease_books p x i H)
    ((members s.ports[p].snapMods).map KeyItem.mod ++ s.ports[p].snapKeys.map KeyItem.key) s H
  rw [itemsOf_modsKeys] at h
  exact h

/-- A port on which nothing is claimed can be emptied. -/
theorem State.emptied_keeps {s x : State} {p : Port} {H : Claims} (hH : ∀ i : Item, H p i = false) (h : x.AccountsFor H)
    (hother : ∀ (q : Port) (i : Item), q ≠ p → H q i = s.holdings q i)
    (hpresent : ∀ q : Port, q ≠ p → x.ports[q].present = s.ports[q].present) : (x.modPort p ConsolePort.emptied).AccountExact := by
  intro q i
  have hport : (x.modPort p ConsolePort.emptied).ports[q] = if q = p then x.ports[q].emptied else x.ports[q] := upd_get_eq ..
  by_cases hq : q = p
  · subst hq
    rw [if_pos rfl] at hport
    have hcount : (List.finRange 8).countP (fun t => x.keyStates[t].holds q i) = 0 :=
      List.countP_eq_zero.2 fun t _ => by simpa using (h.unclaimed (hH i)).2 t
    have hempty : x.ports[q].emptied.suppressed i = false ∧ x.ports[q].emptied.holding i = false := by
      cases i <;> simp [ConsolePort.emptied, ConsolePort.suppressed, ConsolePort.holding, has]
    rw [State.accounts, hport, hempty.1, hempty.2, show flagNum false = 0 from rfl, Nat.zero_add]
    exact hcount
  · rw [if_neg hq] at hport
    rw [State.accounts, hport, ConsolePort.holding_congr (hpresent q hq)]
    exact (h q i).trans (congrArg flagNum (hother q i hq))

/-- A release-all entry releases everything held down on the port (R34). -/
theorem State.takeReleaseAll_keeps (p : Port) (s : State) : s.KeepsRecord (s.takeReleaseAll p) := by
  have htaken := ((s.snapshotReleased_books p s.holdings).setHeld p 0).trans
    (State.handButtonReleases_books p 0 s.ports[p].held _ (s.snapshotReleased p))
  rw [State.takeReleaseAll_eq]
  generalize (s.snapshotReleased p).handButtonReleases p 0 s.ports[p].held = x at htaken ⊢
  have hsame : x.SameBooks (x.setHeld p 0) := x.setHeld_sameBooks p 0
  refine ⟨fun hs => htaken.history hs, fun hs => htaken.keys hs, fun hs => ?_⟩
  have haccount := htaken.account fun q i => by rw [(s.setHeld_sameBooks p 0).accounts]; exact hs q i
  refine State.emptied_keeps (s := s) (fun i => ?_) (fun q i => by rw [← hsame.accounts]; exact haccount q i) (fun q i hq => ?_) fun q hq => ?_
  · simp only [Claims.drop, decide_eq_true, Bool.true_and, State.holdings, ConsolePort.holding_eq_among]
    cases i with
    | key k => simp [Item.among]
    | mod m => simp [Item.among]
    | button b => simp [Item.among, ButtonSet.items]
  · simp only [Claims.drop, decide_eq_false hq, Bool.false_and, Bool.not_false, Bool.and_true]
  · have := htaken.present q
    rw [State.setHeld_port, State.setHeld_port, if_neg hq, if_neg hq] at this
    exact this

theorem State.mergeTake_keeps (s : State) : s.KeepsRecord s.mergeTake := by
  unfold State.mergeTake
  split
  · exact .refl s
  · rename_i p _
    split
    · exact .refl s
    · rename_i e rest _
      refine State.KeepsRecord.trans (t := ({ s with mergeLast := p } : State).modPort p fun q => { q with fifo := rest })
        (.of_ledger (State.modPort_ledger (s := { s with mergeLast := p }) (fun _ => rfl) fun _ => rfl)) ?_
      cases e with
      | keys mods list m => exact State.takeKeys_keeps ..
      | motion dx dy wheel b m => exact State.takeMotion_keeps ..
      | releaseAll => exact State.takeReleaseAll_keeps ..

end Sys2Proof.Machine
end

section
/-! PROOFS. Lanes, resets and the control engine keep history, key-state tables and account sound; so does every step (O57, O58). -/

namespace Sys2Proof.Machine

theorem State.Delivers.record {s t : State} (h : s.Delivers t) : s.KeepsRecord t := h.keeps.record

theorem ite_keepsRecord {c : Prop} [Decidable c] {s a b : State} (ha : s.KeepsRecord a) (hb : s.KeepsRecord b) :
    s.KeepsRecord (if c then a else b) := by
  split
  · exact ha
  · exact hb

/-! ## Console lanes and target lanes -/

theorem State.storeFifo_keeps (p : Port) (l : Option (List FifoEntry)) (s : State) : s.KeepsRecord (s.storeFifo p l) := by
  cases l with
  | some l => exact .of_ledger (State.modPort_ledger (fun _ => rfl) fun _ => rfl)
  | none => exact .of_ledger rfl

theorem State.arriveKeys_keeps (p : Port) (mods : ModSet) (l : KeyList) (s : State) : s.KeepsRecord (s.arriveKeys p mods l) := by
  have hactivity : s.KeepsRecord s.activity := .of_ledger rfl
  cases l with
  | rollover => exact hactivity
  | keys l => exact hactivity.trans (State.storeFifo_keeps ..)

theorem State.arriveMotion_keeps (p : Port) (dx dy : BitVec 16) (wheel buttons : Byte) (s : State) :
    s.KeepsRecord (s.arriveMotion p dx dy wheel buttons) := by
  have hactivity : s.KeepsRecord s.activity := .of_ledger rfl
  exact hactivity.trans (State.storeFifo_keeps ..)

theorem State.attachConsole_keeps (p : Port) (c : PortClass) (s : State) : s.KeepsRecord (s.attachConsole p c) := by
  refine State.KeepsRecord.trans (.of_ledger (State.modPort_ledger (fun q => ?_) fun q => ?_)) (State.sendLeds_delivers ..).record
  · dsimp only
    split <;> rfl
  · dsimp only
    split <;> rfl

theorem State.detachConsole_keeps (p : Port) (s : State) : s.KeepsRecord (s.detachConsole p) :=
  ite_keepsRecord (.of_ledger (State.modPort_ledger (fun _ => rfl) fun _ => rfl)) (.refl s)

theorem State.abandonHoldOf_ledger (t : Target) (s : State) : (s.abandonHoldOf t).ledger = s.ledger := by
  rw [State.abandonHoldOf_eq]
  rfl

theorem State.teardown_keeps (t : Target) (s : State) : s.KeepsRecord (s.teardown t) := by
  refine (s.clearInput_keeps t).record.trans (.of_ledger ?_)
  show (((s.clearInput t).modTarget t TargetPort.tornDown).abandonHoldOf t).ledger = _
  rw [State.abandonHoldOf_ledger]
  rfl

theorem State.attachTarget_keeps (t : Target) (m : Mode) (s : State) : s.KeepsRecord (s.attachTarget t m) :=
  .trans (ite_keepsRecord (s.teardown_keeps t) (.refl s)) (State.modTarget_delivers ..).record

theorem State.detachTarget_keeps (t : Target) (s : State) : s.KeepsRecord (s.detachTarget t) :=
  ite_keepsRecord (s.teardown_keeps t) (.refl s)

theorem onAttached_keepsRecord (t : Target) {f : State → State} (hf : ∀ s : State, s.KeepsRecord (f s)) (s : State) :
    s.KeepsRecord (onAttached t f s) :=
  ite_keepsRecord (hf s) (.refl s)

theorem State.changeMode_keeps (t : Target) (m : Mode) (s : State) : s.KeepsRecord (s.changeMode t m) := by
  refine .of_ledger ?_
  unfold State.changeMode
  dsimp only
  split <;> rfl

theorem State.offerControl_keeps (t : Target) (f : ControlFrame) (s : State) : s.KeepsRecord (s.offerControl t f) :=
  ite_keepsRecord (s.sendTo_delivers t _).record (s.modTarget_delivers t _).record

theorem State.sendReport_keeps (t : Target) (s : State) : s.KeepsRecord (s.sendReport t) := by
  unfold State.sendReport
  split
  · exact .refl s
  · exact ite_keepsRecord (.refl s) ((s.sendTo_delivers t _).trans
      ((State.modTarget_delivers ..).trans (State.modTarget_delivers ..))).record

theorem State.stallExpiry_keeps (t : Target) (s : State) : s.KeepsRecord (s.stallExpiry t) :=
  ite_keepsRecord (.refl s) (.of_ledger rfl)

theorem State.takePower_keeps (t : Target) (v : PowerValue) (s : State) : s.KeepsRecord (s.takePower t v) := by
  have hsuspend : s.KeepsRecord (s.suspend t) := (s.clearInput_keeps t).record.trans (State.modTarget_delivers ..).record
  unfold State.takePower
  split
  case h_5 => exact hsuspend
  all_goals exact .of_ledger rfl

theorem State.wakeExpiry_keeps (t : Target) (s : State) : s.KeepsRecord (s.wakeExpiry t) := by
  refine ite_keepsRecord (ite_keepsRecord ((s.sendTo_delivers t _).trans (State.modTarget_delivers ..)).record ?_) (.refl s)
  exact (State.modTarget_delivers ..).record.trans ((State.clearInput_keeps t _).record.trans (.of_ledger rfl))

theorem State.idleExpiry_keeps (s : State) : s.KeepsRecord s.idleExpiry :=
  ite_keepsRecord (.refl s) (ite_keepsRecord (.of_ledger rfl) (.of_ledger rfl))

/-! ## Heads and displays -/

theorem State.headFrameEnd_keeps (h : Head) (g : Geometry) (pic : Nat) (s : State) : s.KeepsRecord (s.headFrameEnd h g pic) := by
  have hmoved : s.KeepsRecord (s.modHead h (HeadState.frameEnd g pic)) := .of_ledger rfl
  refine ite_keepsRecord ?_ hmoved
  exact .trans (ite_keepsRecord (hmoved.trans (State.reevaluate_keeps ..).record) hmoved) (State.checkMismatch_delivers ..).record

theorem foldl_ledger {α : Type} {f : State → α → State} (h : ∀ (s : State) (a : α), (f s a).ledger = s.ledger) (l : List α) (s : State) :
    (l.foldl f s).ledger = s.ledger := by
  induction l generalizing s with
  | nil => rfl
  | cons a l ih => rw [List.foldl_cons, ih, h]

theorem State.settleWindow_ledger (s : State) (q : Window × Bool) : (s.settleWindow q).ledger = s.ledger := by
  unfold State.settleWindow
  dsimp only
  split <;> rfl

theorem State.displayFrame_keeps (d : Display) (s : State) : s.KeepsRecord (s.displayFrame d) := by
  have hloss : (s.advanceLoss d).ledger = s.ledger := by
    unfold State.advanceLoss
    split <;> rfl
  refine ite_keepsRecord (.of_ledger ?_) (.of_ledger rfl)
  exact (foldl_ledger State.settleWindow_ledger _ _).trans hloss

/-! ## A completed release and the resets (R21, R49, R59, R176, R177) -/

theorem State.rehomed_ledger (s : State) : s.rehomed.ledger = s.ledger := by
  rw [State.rehomed_eq]
  rfl

theorem State.releaseDetached_ledger (s : State) : s.releaseDetached.ledger = s.ledger := by
  unfold State.releaseDetached
  split <;> rfl

theorem State.completeLayout_keeps (s : State) : s.KeepsRecord s.completeLayout := by
  have hhomed : s.KeepsRecord s.rehomed := .of_ledger s.rehomed_ledger
  rw [State.completeLayout_eq]
  refine .trans (ite_keepsRecord ?_ ?_) (State.checkMismatch_delivers ..).record
  · exact hhomed.trans (.of_ledger (State.releaseDetached_ledger _))
  · exact hhomed.trans (State.reevaluate_keeps ..).record

/-- Focus record and glide unit reset (R49): the history is empty. -/
theorem State.resetFocus_keeps (s : State) : s.KeepsRecord s.resetFocus := by
  unfold State.resetFocus
  split
  · exact .refl s
  · exact ⟨fun _ => ⟨Nat.zero_le _, List.nodup_nil, by simp⟩, id, id⟩

/-- Where every table is empty and every suppressed set holds what is held down, the account is exact. -/
theorem State.accountExact_of_empty {s : State} (htable : ∀ (t : Target) (p : Port) (i : Item), s.keyStates[t].holds p i = false)
    (hport : ∀ (p : Port) (i : Item), s.ports[p].suppressed i = s.ports[p].holding i) : s.AccountExact := by
  intro p i
  have hcount : (List.finRange 8).countP (fun t => s.keyStates[t].holds p i) = 0 :=
    List.countP_eq_zero.2 fun t _ => by simpa using htable t p i
  rw [State.accounts, hcount, hport, Nat.add_zero]

/-- Every block reset (R23, R39): nothing is held down, booked or suppressed. -/
theorem State.keepsRecord_of_initial {s t : State} (hhistory : s.HistorySound → t.HistorySound)
    (hports : ∀ p : Port, t.ports[p] = ConsolePort.initial) (hkeys : ∀ u : Target, t.keyStates[u] = KeyState.initial) : s.KeepsRecord t := by
  refine ⟨hhistory, fun _ u => ?_, fun _ => State.accountExact_of_empty (fun u p i => ?_) fun p i => ?_⟩
  · rw [hkeys]; exact KeyState.initial_sound 0
  · rw [hkeys]; exact KeyState.clear_holds p KeyState.initial i
  · rw [hports, ConsolePort.initial_suppressed, ConsolePort.initial_holding]

theorem State.hardReset_keeps (s : State) : s.KeepsRecord s.hardReset := by
  rw [State.hardReset_eq]
  refine .trans (t := s.blocksReset) (State.keepsRecord_of_initial id (fun p => ?_) fun u => ?_) (State.resetFocus_keeps _)
  · simp [State.blocksReset]
  · simp [State.blocksReset]

theorem Focus.initial_historySound :
    Focus.initial.history.length ≤ 4 ∧ Focus.initial.history.Nodup ∧ Focus.initial.target ∉ Focus.initial.history := by
  decide

theorem State.powerOn_keeps (cfgt : Target) (lock : Bool) (s : State) : s.KeepsRecord (State.powerOn cfgt lock) :=
  State.keepsRecord_of_initial (fun _ => Focus.initial_historySound) (State.powerOn_ports cfgt lock) (State.powerOn_keyStates cfgt lock)

theorem State.clearInput_foldl_keeps (l : List Target) (s : State) : s.KeepsBooks (l.foldl (fun acc t => acc.clearInput t) s) := by
  induction l generalizing s with
  | nil => exact .refl s
  | cons t l ih => exact (s.clearInput_keeps t).trans (ih _)

/-- Once cleared, a target holds nothing, whatever is cleared after it. -/
theorem State.clearInput_foldl_holds {l : List Target} {t : Target} {p : Port} {i : Item} :
    ∀ {s : State}, t ∈ l ∨ s.keyStates[t].holds p i = false → (l.foldl (fun acc t => acc.clearInput t) s).keyStates[t].holds p i = false := by
  induction l with
  | nil => exact fun h => h.resolve_left (by simp)
  | cons u l ih =>
    intro s h
    refine ih ?_
    have hclear : (s.clearInput u).keyStates[t] = if t = u then s.keyStates[t].clear else s.keyStates[t] := upd_get_eq ..
    by_cases hu : t = u
    · rw [hclear, if_pos hu]
      exact .inr (KeyState.clear_holds ..)
    · rw [hclear, if_neg hu]
      exact h.imp_left fun hm => (List.mem_cons.1 hm).resolve_left hu

/-- Part 2 of DESK_RESET: every table is emptied, and what is held down is suppressed (R23, R48, R177). -/
theorem State.deskResetFocus_keeps (s : State) : s.KeepsRecord s.deskResetFocus := by
  have hcleared := (State.clearInput_foldl_keeps (List.finRange 8) s).record
  have hempty : ∀ (t : Target) (p : Port) (i : Item),
      ((List.finRange 8).foldl (fun acc t => acc.clearInput t) s).keyStates[t].holds p i = false := fun t p i =>
    State.clearInput_foldl_holds (.inl (List.mem_finRange t))
  unfold State.deskResetFocus
  dsimp only
  generalize (List.finRange 8).foldl (fun acc t => acc.clearInput t) s = x at hcleared hempty ⊢
  refine hcleared.trans (.trans (t := { x with ports := updAll x.ports fun _ port => port.suppressHeld, detector := Detector.initial }) ?_
    ((State.resetFocus_keeps _).trans (State.sendLeds_delivers ..).record))
  refine ⟨id, id, fun hx => State.accountExact_of_empty hempty fun p i => ?_⟩
  have hport : (updAll x.ports fun _ port => port.suppressHeld)[p] = x.ports[p].suppressHeld := updAll_get ..
  show (updAll x.ports fun _ port => port.suppressHeld)[p].suppressed i = (updAll x.ports fun _ port => port.suppressHeld)[p].holding i
  have hshare : flagNum (x.ports[p].suppressed i) + flagNum false ≤ flagNum (x.ports[p].holding i) := by
    rw [← hx p i, ← hempty 0 p i]
    exact x.share_le_accounts 0 p i
  have hbool : ∀ a b : Bool, flagNum a + flagNum false ≤ flagNum b → (a || b) = b := by decide
  rw [hport, ConsolePort.suppressHeld, ConsolePort.suppressAll_suppressed, ← ConsolePort.holding_eq_among]
  exact hbool _ _ hshare

theorem State.takePart_keeps (stage : ResetStage) (s : State) : s.KeepsRecord (s.takePart stage) := by
  cases stage with
  | focusUnit => exact s.deskResetFocus_keeps
  | targetPorts =>
    exact State.Delivers.record (.trans (t := { s with targets := updAll s.targets fun _ p => p.deskReset }) rfl
      (State.foldl_delivers (fun _ _ => State.modTarget_delivers ..) _ _))
  | compositor | layoutStore | noticeRecord => exact .of_ledger rfl
  | answer => exact .refl s

/-! ## The control engine (R163) -/

theorem State.takeFrame_keeps (c : Option ControlCommand) {run : Target → ControlFrame → State → State}
    (h : ∀ (t : Target) (f : ControlFrame) (s : State), s.KeepsRecord (run t f s)) (s : State) : s.KeepsRecord (s.takeFrame c run) := by
  refine ite_keepsRecord (.refl s) ?_
  split
  · exact .refl s
  · rename_i t f _
    have hlast : s.KeepsRecord { s with ctrlLast := t } := .of_ledger rfl
    exact ite_keepsRecord (ite_keepsRecord (hlast.trans (h t f _)) (hlast.trans (State.reply_delivers ..).record)) (.refl s)

theorem State.control_keeps (c : Option ControlCommand) {body : Target → List Byte → State → State × Answer}
    (h : ∀ (t : Target) (args : List Byte) (s : State), s.KeepsRecord (body t args s).1) (s : State) : s.KeepsRecord (s.control c body) :=
  State.takeFrame_keeps c (fun t f x => (h t f.args x).trans (State.reply_delivers ..).record) s

theorem State.writeEntry_keeps (t : Target) (e : TableEntry) (new : List Nat) (s : State) : s.KeepsRecord (s.writeEntry t e new) := by
  obtain ⟨honly, hports, -⟩ := s.writeEntry_frame t e new
  refine .of_ledger ?_
  by_cases hc : ∃ p : Port, e = .consoles p
  · obtain ⟨p, rfl⟩ := hc
    show (s.writeConsole p (ConsoleEntry.ofFields new)).ledger = s.ledger
    by_cases hpin : (ConsoleEntry.ofFields new).pin = s.pin p
    · rw [State.writeConsole_same_pin hpin]
      rfl
    · rw [State.writeConsole_new_pin hpin]
      exact State.modPort_ledger (p := p) (f := fun q => { q with inChord := q.inChord && (ConsoleEntry.ofFields new).pin.isSome })
        (s := s) (fun _ => rfl) fun _ => rfl
  · obtain ⟨hsame, -⟩ := hports fun p hp => hc ⟨p, hp⟩
    rw [honly, hsame]
    rfl

theorem State.doTableRead_keeps (t : Target) (args : List Byte) (s : State) : s.KeepsRecord (s.doTableRead t args).1 := by
  unfold State.doTableRead
  split <;> exact .refl s

theorem State.doTableWrite_keeps (t : Target) (args : List Byte) (s : State) : s.KeepsRecord (s.doTableWrite t args).1 := by
  unfold State.doTableWrite
  split
  · dsimp only
    split
    · exact .refl s
    · exact s.writeEntry_keeps ..
  · exact .refl s

theorem State.doLayoutHold_keeps (t : Target) (args : List Byte) (s : State) : s.KeepsRecord (s.doLayoutHold t args).1 := by
  unfold State.doLayoutHold
  repeat' split
  all_goals exact .of_ledger rfl

theorem State.doLayoutAbandon_keeps (t : Target) (args : List Byte) (s : State) : s.KeepsRecord (s.doLayoutAbandon t args).1 := by
  unfold State.doLayoutAbandon
  split <;> exact .of_ledger rfl

theorem State.doLayoutRelease_keeps (t : Target) (args : List Byte) (s : State) : s.KeepsRecord (s.doLayoutRelease t args).1 := by
  unfold State.doLayoutRelease
  split
  · split
    · exact .refl s
    · exact s.completeLayout_keeps
  · exact .refl s

theorem State.doFocusSet_keeps (t : Target) (args : List Byte) (s : State) : s.KeepsRecord (s.doFocusSet t args).1 := by
  unfold State.doFocusSet
  split
  · exact .refl s
  · exact (State.directed_keeps ..).record

theorem State.doWake_keeps (t : Target) (args : List Byte) (s : State) : s.KeepsRecord (s.doWake t args).1 := by
  unfold State.doWake
  split
  · exact .refl s
  · exact (State.wakeRequest_delivers ..).record

theorem State.doWindowShow_keeps (t : Target) (args : List Byte) (s : State) : s.KeepsRecord (s.doWindowShow t args).1 := by
  unfold State.doWindowShow State.showWindow
  split
  · exact .refl s
  split
  · split
    · exact ite_keepsRecord (.refl s) (.trans (t := s.modWindow _ _) (.of_ledger rfl) (State.reevaluate_keeps ..).record)
    · exact .refl s
  · exact .refl s

theorem State.doNoticeClear_keeps (t : Target) (args : List Byte) (s : State) : s.KeepsRecord (s.doNoticeClear t args).1 := by
  unfold State.doNoticeClear
  split
  · exact .refl s
  · dsimp only
    split <;> exact .of_ledger rfl

theorem State.doNoticeSubscribe_keeps (t : Target) (args : List Byte) (s : State) : s.KeepsRecord (s.doNoticeSubscribe t args).1 := by
  unfold State.doNoticeSubscribe
  repeat' split
  all_goals exact .of_ledger rfl

theorem State.finish_keeps (e : Execution) (a : Answer) (s : State) : s.KeepsRecord (s.finish e a) := by
  have hfree : s.KeepsRecord { s with executing := none } := .of_ledger rfl
  unfold State.finish
  dsimp only
  split
  · exact hfree.trans (State.reply_delivers ..).record
  · exact hfree

theorem State.goOn_keeps (e : Execution) (s : State) : s.KeepsRecord (s.goOn e) := by
  unfold State.goOn
  split
  · split
    · exact (s.takePart_keeps _).trans (.of_ledger rfl)
    · exact s.finish_keeps ..
  · exact .of_ledger rfl
  · exact s.finish_keeps ..

theorem State.controlPart_keeps (c : ControlCommand) {start : Target → ControlFrame → State → State}
    (h : ∀ (t : Target) (f : ControlFrame) (s : State), s.KeepsRecord (start t f s)) (s : State) :
    s.KeepsRecord (s.controlPart c start) := by
  rcases s.controlPart_cases c start with ⟨-, heq⟩ | ⟨e, -, -, heq⟩ | ⟨e, -, -, heq⟩ <;> rw [heq]
  · exact s.takeFrame_keeps _ h
  · exact s.goOn_keeps e
  · exact .refl s

theorem State.beginStatusRead_keeps (t : Target) (f : ControlFrame) (s : State) : s.KeepsRecord (s.beginStatusRead t f) := by
  unfold State.beginStatusRead
  split
  · exact s.goOn_keeps _
  · exact (State.reply_delivers ..).record

/-! ## Every step -/

theorem running_keepsRecord {f : State → State} {s t : State} (hr : running s f = .next t) (h : ∀ s : State, s.KeepsRecord (f s)) :
    s.KeepsRecord t := by
  obtain rfl := Host.Outcome.next.inj hr
  exact ite_keepsRecord (.refl s) (h s)

theorem exec_keepsRecord {c : Instr} {s t : State} (h : exec c s = .next t) : s.KeepsRecord t := by
  cases c with
  | powerOn cfgt lock =>
    obtain rfl := Host.Outcome.next.inj h
    exact (s.powerOn_keeps cfgt lock).trans (.of_ledger rfl)
  | hardReset =>
    obtain rfl := Host.Outcome.next.inj h
    exact s.hardReset_keeps
  | resetNRelease =>
    obtain rfl := Host.Outcome.next.inj h
    exact ite_keepsRecord (.of_ledger rfl) (.refl s)
  | cAttach p cls => exact running_keepsRecord h (State.attachConsole_keeps p cls)
  | cKeys p mods l =>
    unfold exec execCKeys at h
    exact running_keepsRecord h fun x => ite_keepsRecord (.of_ledger rfl) (ite_keepsRecord (x.arriveKeys_keeps p mods l) (.refl x))
  | cMotion p dx dy wheel buttons =>
    unfold exec execCMotion at h
    exact running_keepsRecord h fun x => ite_keepsRecord (x.arriveMotion_keeps p dx dy wheel buttons) (.refl x)
  | cDetach p => exact running_keepsRecord h (State.detachConsole_keeps p)
  | consoleLaneLoss p => exact running_keepsRecord h (State.detachConsole_keeps p)
  | mergeTakeEntry => exact running_keepsRecord h State.mergeTake_keeps
  | tapDeadlineExpiry =>
    unfold exec execTapDeadlineExpiry at h
    exact running_keepsRecord h fun x => ite_keepsRecord (.of_ledger rfl) (.refl x)
  | leaderDeadlineExpiry =>
    unfold exec execLeaderDeadlineExpiry at h
    exact running_keepsRecord h fun x => ite_keepsRecord (.of_ledger rfl) (.refl x)
  | pAttach u m => exact running_keepsRecord h (State.attachTarget_keeps u m)
  | pDetach u => exact running_keepsRecord h (State.detachTarget_keeps u)
  | targetLaneLoss u => exact running_keepsRecord h (State.detachTarget_keeps u)
  | pMode u m => exact running_keepsRecord h (onAttached_keepsRecord u (State.changeMode_keeps u m))
  | pCredit u n =>
    unfold exec execPCredit at h
    have hgrant := onAttached_keepsRecord u (f := State.grantCredit u n.toNat) fun _ => .of_ledger rfl
    exact running_keepsRecord h fun x => ite_keepsRecord (hgrant x) (.of_ledger rfl)
  | pLeds u l =>
    unfold exec execPLeds at h
    have hreport := onAttached_keepsRecord u (f := State.reportLeds u (l.setWidth 5)) fun _ => .of_ledger rfl
    exact running_keepsRecord h fun x => ite_keepsRecord (hreport x) (.of_ledger rfl)
  | pPower u v =>
    unfold exec execPPower at h
    exact running_keepsRecord h fun x => ite_keepsRecord (x.takePower_keeps u v) (.refl x)
  | pControl u tag command args =>
    unfold exec execPControl at h
    exact running_keepsRecord h fun x =>
      ite_keepsRecord (onAttached_keepsRecord u (State.offerControl_keeps u ⟨tag, command, args⟩) x) (.of_ledger rfl)
  | sendReport u => exact running_keepsRecord h (State.sendReport_keeps u)
  | stallTimerExpiry u => exact running_keepsRecord h (State.stallExpiry_keeps u)
  | wakeTimerExpiry u => exact running_keepsRecord h (State.wakeExpiry_keeps u)
  | idleTimerExpiry => exact running_keepsRecord h State.idleExpiry_keeps
  | signalArrival k => exact running_keepsRecord h fun _ => .of_ledger rfl
  | signalLoss k => exact running_keepsRecord h fun _ => .of_ledger rfl
  | headFrameEnd k g pic => exact running_keepsRecord h (State.headFrameEnd_keeps k g pic)
  | displayFrameStart d => exact running_keepsRecord h (State.displayFrame_keeps d)
  | tableRead => exact running_keepsRecord h (State.control_keeps _ State.doTableRead_keeps)
  | tableWrite => exact running_keepsRecord h (State.control_keeps _ State.doTableWrite_keeps)
  | layoutHold => exact running_keepsRecord h (State.control_keeps _ State.doLayoutHold_keeps)
  | layoutRelease => exact running_keepsRecord h (State.control_keeps _ State.doLayoutRelease_keeps)
  | layoutAbandon => exact running_keepsRecord h (State.control_keeps _ State.doLayoutAbandon_keeps)
  | focusSet => exact running_keepsRecord h (State.control_keeps _ State.doFocusSet_keeps)
  | wake => exact running_keepsRecord h (State.control_keeps _ State.doWake_keeps)
  | windowShow => exact running_keepsRecord h (State.control_keeps _ State.doWindowShow_keeps)
  | statusRead => exact running_keepsRecord h (State.controlPart_keeps _ State.beginStatusRead_keeps)
  | noticeRead => exact running_keepsRecord h (State.control_keeps _ fun _ _ => .refl)
  | noticeClear => exact running_keepsRecord h (State.control_keeps _ State.doNoticeClear_keeps)
  | noticeSubscribe => exact running_keepsRecord h (State.control_keeps _ State.doNoticeSubscribe_keeps)
  | deskReset => exact running_keepsRecord h (State.controlPart_keeps _ fun _ _ _ => .of_ledger rfl)
  | badCommand => exact running_keepsRecord h (State.control_keeps _ fun _ _ => .refl)
  | badConsoleFrame p bytes =>
    unfold exec execBadConsoleFrame at h
    exact running_keepsRecord h fun x => ite_keepsRecord (.of_ledger rfl) (.refl x)
  | badTargetFrame u bytes =>
    unfold exec execBadTargetFrame at h
    exact running_keepsRecord h fun x => ite_keepsRecord (.of_ledger rfl) (.refl x)

theorem step_keepsRecord {s t : State} (h : step s = .next t) : s.KeepsRecord t := by
  unfold step at h
  split at h
  · split at h
    · exact exec_keepsRecord h
    · obtain rfl := Host.Outcome.next.inj h
      exact .refl s
  · rename_i rest _
    exact (.of_ledger rfl : s.KeepsRecord { s with pending := rest }).trans (exec_keepsRecord h)

end Sys2Proof.Machine

/-- Settles O57: history and tables follow every operation on the account, command by command (`step_keepsRecord`). -/
theorem everyStepKeepsHistoryAndTablesSound : Obligations.EveryStepKeepsHistoryAndTablesSound :=
  ⟨fun _ _ hs h => (Sys2Proof.Machine.step_keepsRecord h).history hs, fun _ _ hs h => (Sys2Proof.Machine.step_keepsRecord h).keys hs⟩

/-- Settles O58: each press, release, clearing and switch moves what is accounted for as it moves what is held down (`State.Books`). -/
theorem everyStepKeepsTheAccountExact : Obligations.EveryStepKeepsTheAccountExact :=
  fun _ _ hs h => (Sys2Proof.Machine.step_keepsRecord h).account hs
end

section
/-! PROOFS. Suspension and the wake timer (O27, O32). -/

namespace Sys2Proof.Machine

/-! ## Cleared input -/

/-- What a cleared target input leaves as it was: each console port but for its suppressed sets. -/
theorem State.clearInput_samePorts (t : Target) (s : State) : s.SamePortsButSuppressed (s.clearInput t) := by
  intro p
  rw [State.clearInput_port]
  rfl

theorem State.noticeTargets_modTarget {t : Target} {f : TargetPort → TargetPort} (h : ∀ p : TargetPort, (f p).attached = p.attached) (s : State) :
    (s.modTarget t f).noticeTargets = s.noticeTargets := by
  have hattached : ∀ u : Target, (s.modTarget t f).targets[u].attached = s.targets[u].attached := by
    intro u
    rw [State.modTarget_targets, upd_get_eq]
    split
    · exact h _
    · rfl
  simp only [State.noticeTargets, hattached]
  rfl

/-! ## P_POWER and WAKE_TIMER_EXPIRY executed -/

theorem exec_pPower {t : Target} {v : PowerValue} {s : State} (hreset : s.resetAsserted = false) (hattached : s.targets[t].attached = true) :
    exec (.pPower t v) s = .next (s.takePower t v) := by
  refine (running_eq s _ hreset).trans ?_
  rw [if_pos hattached]

theorem exec_wakeTimerExpiry {t : Target} {v : Nat} {s : State} (hreset : s.resetAsserted = false) (hpower : s.targets[t].power = .waking)
    (htimer : s.targets[t].wakeTimer = some v) : exec (.wakeTimerExpiry t) s = .next (if s.targets[t].retry < s.policies[t].wakeRetry then
      (s.sendTo t (.wake t)).modTarget t fun p => { p with retry := p.retry + 1, wakeTimer := some s.desk.wakeTimeout } else s.failWake t) := by
  refine (running_eq s _ hreset).trans ?_
  rw [State.wakeExpiry, if_pos ⟨hpower, by rw [htimer]; rfl⟩]

/-- A wake failure (R152) as the raise from the state before it: the raise sees the same subscribers. -/
theorem State.failWake_eq (t : Target) (s : State) : s.failWake t = { s.raise .wakeFailed (eightSubject t) with
    targets := upd s.targets t TargetPort.failWake
    ports := (s.clearInput t).ports
    keyStates := upd s.keyStates t KeyState.clear } := by
  have htold : ((s.modTarget t TargetPort.failWake).clearInput t).noticeTargets = s.noticeTargets :=
    s.noticeTargets_modTarget (f := TargetPort.failWake) fun _ => rfl
  unfold State.failWake State.raise
  rw [htold]
  rfl

end Sys2Proof.Machine

open Sys2Proof Sys2Proof.Machine

/-- Settles O27, case by case of R146; a suspension is the clearing of R48 and a change of the port (R147). -/
theorem powerFramesSuspendOrAreIgnored : Obligations.PowerFramesSuspendOrAreIgnored := by
  intro t s hreset hattached
  refine ⟨fun h => ?_, fun h => ?_, fun h => ?_, fun h => ⟨s.suspend t, ?_, rfl, rfl, s.clearInput_suppressed t, s.clearInput_samePorts t, rfl⟩⟩
  all_goals
    rw [exec_pPower hreset hattached]
    unfold State.takePower
    rw [h]

/-- Settles O32: the two branches of R151, the failure by `State.failWake_eq`. -/
theorem wakeTimerRetriesThenFails : Obligations.WakeTimerRetriesThenFails := by
  intro t v s hreset hattached hpower htimer
  rw [exec_wakeTimerExpiry hreset hpower htimer]
  refine ⟨fun hleft => ?_, fun hnone => ⟨s.failWake t, ?_, ?_⟩⟩
  · rw [if_pos hleft, State.sendTo, if_pos hattached]
    rfl
  · rw [if_neg (Nat.not_lt.2 hnone)]
  · have hraised : has ((s.raise .wakeFailed (eightSubject t)).subjects .wakeFailed) (eightSubject t) = true := by
      simp [State.raise_has]
    rw [State.failWake_eq]
    exact ⟨rfl, rfl, s.clearInput_suppressed t, s.clearInput_samePorts t, hraised, rfl, rfl, rfl⟩
end

section
/-! PROOFS. Key presses and releases at their target (O14, O15). -/

namespace Sys2Proof.Machine

/-! ## A release at one table (R46) -/

/-- A key or modifier release leaves keys and sequence numbers in their order, the counter and the buttons (R39, R46). -/
theorem KeyState.release_keyItem (p : Port) (i : KeyItem) (ks : KeyState) :
    ks.release p i.item = { ks with keys := (ks.release p i.item).keys, mods := (ks.release p i.item).mods } ∧
    ((ks.release p i.item).keys.map fun e => (e.key, e.seq)).Sublist (ks.keys.map fun e => (e.key, e.seq)) := by
  cases i with
  | key k => exact ⟨rfl, filter_sources_sublist _ (fun e => by split <;> rfl) ks.keys⟩
  | mod m => exact ⟨rfl, List.Sublist.refl _⟩

theorem ConsolePort.unsuppress_keyItem (i : KeyItem) (c : ConsolePort) :
    c.unsuppress i.item = { c with supKeys := (c.unsuppress i.item).supKeys, supMods := (c.unsuppress i.item).supMods } := by
  cases i <;> rfl

theorem ConsolePort.suppress_keyItem (i : KeyItem) (c : ConsolePort) :
    c.suppress i.item = { c with supKeys := (c.suppress i.item).supKeys, supMods := (c.suppress i.item).supMods } := by
  have hbuttons : c.supButtons ||| 0 = c.supButtons := BitVec.or_zero
  cases i <;> simp only [KeyItem.item, ConsolePort.suppress, ConsolePort.suppressAll, hbuttons]

/-! ## A press at one table (R39, R45) -/

/-- The table refuses the item: a key without an entry, where twelve are held (R45). -/
def KeyState.refuses (i : KeyItem) (ks : KeyState) : Bool :=
  match i with
  | .key k => !ks.hasKey k && decide (12 ≤ ks.keys.length)
  | .mod _ => false

theorem KeyState.press_of_refuses {p : Port} {i : KeyItem} {ks : KeyState} (h : ks.refuses i = true) : ks.press p i.item = none := by
  cases i with
  | key k =>
    simp only [KeyState.refuses, Bool.and_eq_true, Bool.not_eq_true', decide_eq_true_eq] at h
    exact KeyState.press_refused h.1 h.2
  | mod m => cases h

/-- What a booked press does to the table it is booked in. -/
structure KeyState.Takes (p : Port) (i : KeyItem) (ks ks' : KeyState) : Prop where
  buttons  : ks'.buttons = ks.buttons
  modifier : ∀ m : Modifier, i = .mod m → ks' = { ks with mods := ks'.mods }
  mods     : ∀ k : Key, i = .key k → ks'.mods = ks.mods
  joined   : ∀ k : Key, i = .key k → ks.hasKey k = true → ks'.counter = ks.counter ∧
    ks'.keys.map KeyEntry.key = ks.keys.map KeyEntry.key ∧ ks'.keys.map KeyEntry.seq = ks.keys.map KeyEntry.seq
  inserted : ∀ k : Key, i = .key k → ks.hasKey k = false →
    ks'.keys = ks.keys ++ [⟨k, single p, ks.counter⟩] ∧ ks'.counter = ks.counter + 1

theorem KeyState.press_takes {p : Port} {i : KeyItem} {ks : KeyState} (h : ks.refuses i = false) :
    ∃ ks' : KeyState, ks.press p i.item = some ks' ∧ ks.Takes p i ks' := by
  cases i with
  | mod m => exact ⟨_, rfl, rfl, fun _ _ => rfl, nofun, nofun, nofun⟩
  | key k =>
    cases hk : ks.hasKey k with
    | true =>
      refine ⟨_, KeyState.press_joined hk, rfl, nofun, fun _ _ => rfl, fun x hx _ => ⟨rfl, ?_, ?_⟩, fun x hx hn => ?_⟩
      · rw [List.map_map]
        exact List.map_congr_left fun e _ => by simp only [Function.comp_apply]; split <;> rfl
      · rw [List.map_map]
        exact List.map_congr_left fun e _ => by simp only [Function.comp_apply]; split <;> rfl
      · obtain rfl := KeyItem.key.inj hx
        rw [hk] at hn
        cases hn
    | false =>
      have hlen : ¬12 ≤ ks.keys.length := by simpa [KeyState.refuses, hk] using h
      refine ⟨_, KeyState.press_inserted hk (Nat.lt_of_not_le hlen), rfl, nofun, fun _ _ => rfl, fun x hx hn => ?_, fun x hx _ => ?_⟩
      all_goals obtain rfl := KeyItem.key.inj hx
      · rw [hk] at hn
        cases hn
      · exact ⟨rfl, rfl⟩

/-! ## The T_KEYS of a changed view (R42) -/

theorem State.announceView_unchanged {v : ModSet × List Key} {t : Target} {s : State} (h : s.view t = v) : s.announceView v t = s :=
  if_pos h

theorem State.announceView_changed {v : ModSet × List Key} {t : Target} {s : State} (h : s.view t ≠ v) :
    s.announceView v t = s.offerReport t (.keys (s.view t).1 (s.view t).2) :=
  if_neg h

theorem TargetPort.offerHold_wake (r : Report) (p : TargetPort) :
    (p.offerHold r).power = p.power ∧ (p.offerHold r).wakeTimer = p.wakeTimer ∧ (p.offerHold r).retry = p.retry := by
  unfold TargetPort.offerHold
  repeat' split
  all_goals exact ⟨rfl, rfl, rfl⟩

/-- A report offered to a WAKING target goes to its hold queue (R153): the wake goes on. -/
theorem State.offerReport_waking {t : Target} {r : Report} {s : State} (h : s.targets[t].power = .waking) :
    (s.offerReport t r).targets[t] = s.targets[t].offerHold r := by
  simp only [State.offerReport, h, State.modTarget_targets, upd_get]

theorem State.announceView_waking {v : ModSet × List Key} {t : Target} {s : State} (h : s.targets[t].power = .waking) :
    (s.announceView v t).targets[t].power = .waking ∧ (s.announceView v t).targets[t].wakeTimer = s.targets[t].wakeTimer ∧
    (s.announceView v t).targets[t].retry = s.targets[t].retry := by
  by_cases hv : s.view t = v
  · rw [State.announceView_unchanged hv]
    exact ⟨h, rfl, rfl⟩
  · obtain ⟨hpower, htimer, hretry⟩ := TargetPort.offerHold_wake (.keys (s.view t).1 (s.view t).2) s.targets[t]
    rw [State.announceView_changed hv, State.offerReport_waking h]
    exact ⟨hpower.trans h, htimer, hretry⟩

/-- A wake request at a SUSPENDED target (R150). -/
theorem State.wakeRequest_targets {t : Target} {s : State} (h : s.targets[t].power = .suspended) : (s.wakeRequest t).targets =
    upd s.targets t fun p => { p with power := .waking, retry := 0, wakeTimer := some s.desk.wakeTimeout } := by
  have hsent : (s.sendTo t (.wake t)).targets = s.targets := by
    unfold State.sendTo
    split <;> rfl
  simp only [State.wakeRequest, h, State.modTarget_targets, hsent]

theorem State.wakeRequest_suspended {t : Target} {s : State} (h : s.targets[t].power = .suspended) : (s.wakeRequest t).targets[t] =
    { s.targets[t] with power := .waking, retry := 0, wakeTimer := some s.desk.wakeTimeout } := by
  rw [State.wakeRequest_targets h, upd_get]

/-- Beyond its table and its console port a booked press starts the wake and nothing else. -/
theorem State.bookPress_eq (p : Port) (t : Target) (i : Item) (s : State) : s.bookPress p t i =
    { s.wokenByPress t with keyStates := (s.bookPress p t i).keyStates, ports := (s.bookPress p t i).ports } := by
  by_cases h : s.TakesPress t
  · cases hks : s.keyStates[t].press p i with
    | some ks => rw [State.bookPress_booked h hks]; rfl
    | none => rw [State.bookPress_refused fun _ => hks]; rfl
  · rw [State.bookPress_refused fun ht => absurd ht h]
    rfl

theorem State.bookPress_targets (p : Port) (t : Target) (i : Item) (s : State) :
    (s.bookPress p t i).targets = (s.wokenByPress t).targets := by
  rw [State.bookPress_eq]

theorem State.announceView_keyStates (v : ModSet × List Key) (t : Target) (s : State) : (s.announceView v t).keyStates = s.keyStates :=
  (s.announceView_delivers v t).keyStates

theorem State.announceView_ports (v : ModSet × List Key) (t : Target) (s : State) : (s.announceView v t).ports = s.ports :=
  (s.announceView_delivers v t).ports

/-! ## A press routed to a target (R45) -/

theorem State.keyPress_keyStates (p : Port) (t : Target) (i : KeyItem) (s : State) :
    (s.keyPress p t i).keyStates = (s.bookPress p t i.item).keyStates := State.announceView_keyStates ..

theorem State.keyPress_ports (p : Port) (t : Target) (i : KeyItem) (s : State) :
    (s.keyPress p t i).ports = (s.bookPress p t i.item).ports := State.announceView_ports ..

/-- A press taken into a table with room for it. -/
theorem State.keyPress_taken {p : Port} {t : Target} {i : KeyItem} {s : State} (h : s.TakesPress t)
    (hroom : s.keyStates[t].refuses i = false) : ∃ ks : KeyState, s.keyStates[t].press p i.item = some ks ∧ s.keyStates[t].Takes p i ks ∧
      (s.keyPress p t i).keyStates = upd s.keyStates t (fun _ => ks) ∧ (s.keyPress p t i).ports = s.ports := by
  obtain ⟨ks, hks, htakes⟩ := KeyState.press_takes (p := p) hroom
  refine ⟨ks, hks, htakes, ?_, ?_⟩
  · rw [State.keyPress_keyStates, State.bookPress_booked h hks, State.modKeys_keyStates, (s.wokenByPress_delivers t).keyStates]
  · rw [State.keyPress_ports, State.bookPress_booked h hks]
    exact (s.wokenByPress_delivers t).ports

/-- A press that is not taken, or that its table refuses. -/
theorem State.keyPress_refused {p : Port} {t : Target} {i : KeyItem} {s : State}
    (h : ¬(s.TakesPress t ∧ s.keyStates[t].refuses i = false)) :
    (s.keyPress p t i).keyStates = s.keyStates ∧ (s.keyPress p t i).ports = upd s.ports p (ConsolePort.suppress i.item) := by
  have hrefused : s.bookPress p t i.item = (s.wokenByPress t).modPort p (ConsolePort.suppress i.item) :=
    State.bookPress_refused fun ht => KeyState.press_of_refuses (by simpa using fun hr => h ⟨ht, hr⟩)
  rw [State.keyPress_keyStates, State.keyPress_ports, hrefused, State.modPort_ports, (s.wokenByPress_delivers t).ports]
  exact ⟨(s.wokenByPress_delivers t).keyStates, rfl⟩

theorem State.keyPress_otherTables {p : Port} {t u : Target} {i : KeyItem} {s : State} (hu : u ≠ t) :
    (s.keyPress p t i).keyStates[u] = s.keyStates[u] := by
  by_cases h : s.TakesPress t ∧ s.keyStates[t].refuses i = false
  · obtain ⟨ks, -, -, hkeys, -⟩ := State.keyPress_taken (p := p) h.1 h.2
    rw [hkeys, upd_get_ne _ _ _ _ hu]
  · rw [(State.keyPress_refused h).1]

theorem State.keyPress_otherPorts {p q : Port} {t : Target} {i : KeyItem} {s : State} (hq : q ≠ p) :
    (s.keyPress p t i).ports[q] = s.ports[q] := by
  by_cases h : s.TakesPress t ∧ s.keyStates[t].refuses i = false
  · obtain ⟨ks, -, -, -, hports⟩ := State.keyPress_taken (p := p) h.1 h.2
    rw [hports]
  · rw [(State.keyPress_refused h).2, upd_get_ne _ _ _ _ hq]

/-- Beyond the table, the console port and the wake only a changed view is offered (R42). -/
theorem State.keyPress_eq (p : Port) (t : Target) (i : KeyItem) (s : State) : s.keyPress p t i = State.announceView (s.view t) t
    { s.wokenByPress t with keyStates := (s.keyPress p t i).keyStates, ports := (s.keyPress p t i).ports } := by
  rw [State.keyPress_keyStates, State.keyPress_ports, ← State.bookPress_eq]
  rfl

/-- A press that is not taken changes no target port, since the view stays. -/
theorem State.keyPress_targets_untaken {p : Port} {t : Target} {i : KeyItem} {s : State} (h : ¬s.TakesPress t) :
    (s.keyPress p t i).targets = s.targets := by
  have hasleep : s.wokenByPress t = s := if_neg fun hwakes => h (.inr (.inr hwakes))
  have hrefused : s.bookPress p t i.item = s.modPort p (ConsolePort.suppress i.item) := by
    rw [State.bookPress_refused fun ht => absurd ht h, hasleep]
  have hsilent : State.announceView (s.view t) t (s.modPort p (ConsolePort.suppress i.item)) = s.modPort p (ConsolePort.suppress i.item) :=
    State.announceView_unchanged rfl
  rw [State.keyPress, hrefused, hsilent]
  rfl

/-- A press under WAKE_ON_KEY starts the wake of a SUSPENDED target (R45, R150). -/
theorem State.keyPress_wakes {p : Port} {t : Target} {i : KeyItem} {s : State} (h : s.WakesOnPress t) :
    (s.keyPress p t i).targets[t].power = .waking ∧ (s.keyPress p t i).targets[t].wakeTimer = some s.desk.wakeTimeout ∧
    (s.keyPress p t i).targets[t].retry = 0 := by
  have hwoken : (s.bookPress p t i.item).targets[t] =
      { s.targets[t] with power := .waking, retry := 0, wakeTimer := some s.desk.wakeTimeout } := by
    rw [State.bookPress_targets, State.wokenByPress, if_pos h, State.wakeRequest_suspended h.1]
  obtain ⟨hpower, htimer, hretry⟩ := State.announceView_waking (v := s.view t) (t := t) (s := s.bookPress p t i.item) (by rw [hwoken])
  exact ⟨hpower, htimer.trans (by rw [hwoken]), hretry.trans (by rw [hwoken])⟩

/-- A release handed on by the detector (R68): the tap deadline first, where it is IDLE with the item as candidate. -/
theorem State.detectRelease_eq (p : Port) (i : KeyItem) (s : State) : s.detectRelease p i =
    (if s.detector.state = .idle ∧ s.detector.candidate = some (i, p) then
      { s with detector := ⟨.tapWait, some (i, p), some s.desk.tapWindow, none⟩ } else s).keyRelease p i := by
  unfold State.detectRelease
  split <;> rfl

end Sys2Proof.Machine

open Sys2Proof Sys2Proof.Machine

/-- Settles O15: the three places a released item can be (`State.releaseItem`), and the detector's part. -/
theorem keyReleaseIsAbsorbedOrTakenAtTheHolder : Obligations.KeyReleaseIsAbsorbedOrTakenAtTheHolder := by
  intro p i s
  refine ⟨fun hsup => ?_, fun hsup t ht => ?_, fun hsup hnone => ?_, s.detectRelease_eq p i⟩
  · rw [State.keyRelease_suppressed hsup, State.releaseItem_suppressed hsup]
    have hport : (s.modPort p (ConsolePort.unsuppress i.item)).ports[p] = s.ports[p].unsuppress i.item := upd_get ..
    refine ⟨rfl, fun q hq => upd_get_ne _ _ _ _ hq, ?_, fun j => ?_⟩
    · rw [hport]
      exact ConsolePort.unsuppress_keyItem i _
    · rw [hport, ConsolePort.unsuppress_suppressed, Bool.and_comm, decide_not]
  · rw [State.keyRelease_held hsup ht, State.releaseItem_held hsup ht, State.announceView_keyStates]
    have hkeys : (s.modKeys t (KeyState.release p i.item)).keyStates[t] = s.keyStates[t].release p i.item := upd_get ..
    obtain ⟨hfields, hsub⟩ := s.keyStates[t].release_keyItem p i
    refine ⟨fun u hu => upd_get_ne _ _ _ _ hu, fun q j => ?_, ?_, ?_, State.announceView_unchanged, State.announceView_changed⟩
    · rw [hkeys, KeyState.release_holds, Bool.and_comm, decide_not]
    · rw [hkeys]
      exact hfields
    · rw [hkeys]
      exact hsub
  · rw [State.keyRelease_nowhere hsup hnone, State.releaseItem_nowhere hsup hnone]

/-- Settles O14: a press is booked where it is taken and its table has room, and refused otherwise (`State.keyPress_taken`,
`State.keyPress_refused`); the T_KEYS of a changed view comes after. -/
theorem keyPressIsBookedOrSuppressed : Obligations.KeyPressIsBookedOrSuppressed := by
  intro p t i s s' ks ks' wakes taking full booked
  have hfull : full = ks.refuses i := by cases i <;> rfl
  refine ⟨s.keyPress_eq p t i, fun u hu => State.keyPress_otherTables hu, fun q hq => State.keyPress_otherPorts hq,
    fun htaking hroom => ?_, fun hrefused => ?_, State.keyPress_targets_untaken, State.keyPress_wakes⟩
  · obtain ⟨x, hpress, htakes, hkeys, hports⟩ := State.keyPress_taken (p := p) (s := s) htaking (hfull ▸ hroom)
    have hx : ks' = x := by
      show (s.keyPress p t i).keyStates[t] = x
      rw [hkeys, upd_get]
    refine ⟨hports, hx ▸ htakes.buttons, fun q j => ?_, fun m hm => hx ▸ htakes.modifier m hm, fun k hk => ?_⟩
    · rw [hx, KeyState.press_holds p q i.item j ks x hpress, Bool.or_comm]
    · rw [hx]
      exact ⟨htakes.mods k hk, htakes.joined k hk, htakes.inserted k hk⟩
  · obtain ⟨hkeys, hports⟩ := State.keyPress_refused (p := p) (s := s) (hfull ▸ hrefused)
    have hport : s'.ports[p] = s.ports[p].suppress i.item := by
      show (s.keyPress p t i).ports[p] = _
      rw [hports, upd_get]
    refine ⟨hkeys, ?_, fun j => ?_⟩
    · rw [hport]
      exact ConsolePort.suppress_keyItem i _
    · rw [hport, ConsolePort.suppress_suppressed, Bool.or_comm]
end

section
/-! PROOFS. The region re-evaluation and WINDOW_SHOW (O48). -/

namespace Sys2Proof.Machine

/-! ## Region re-evaluation (R60) -/

/-- The region at the pointer is recorded, and nothing else changes. -/
theorem State.recordRegion_eq {region : Region} {s : State} (h : s.regionAt (s.glide.px / 16) (s.glide.py / 16) = some region) :
    s.recordRegion = { s with focus := { s.focus with region := region } } := by
  have hregion : (s.regionAt s.pointer.1 s.pointer.2).getD s.focus.region = region := by
    rw [show s.regionAt s.pointer.1 s.pointer.2 = some region from h, Option.getD_some]
  rw [State.recordRegion, hregion]

/-- Some following port has a button held (R47). -/
abbrev State.FollowingHeld (s : State) : Prop := ∃ q : Port, s.consoles[q].pin = none ∧ s.ports[q].held ≠ 0

theorem State.followingHeld_iff {s : State} : s.followingHeld = true ↔ s.FollowingHeld := by
  simp [State.followingHeld, State.FollowingHeld, State.pin]

/-- A re-evaluation with the region at the pointer and its target known: recorded, and then left or made a switch (R60). -/
theorem State.reevaluate_of_region {cause : Cause} {trigger : ModSet} {region : Region} {r : Target} {s : State}
    (hregion : s.regionAt (s.glide.px / 16) (s.glide.py / 16) = some region) (hr : s.regionTarget region = some r) :
    s.reevaluate cause trigger =
      if s.focus.detached || decide (r = s.focus.target) then { s with focus := { s.focus with region := region } }
      else if s.holdsPoint s.focus.target (s.glide.px / 16) (s.glide.py / 16) && (s.focus.lock || s.followingHeld) then
        { s with focus := { s.focus with region := region } }
      else State.switch r cause trigger region { s with focus := { s.focus with region := region } } := by
  unfold State.reevaluate
  rw [State.recordRegion_eq hregion]
  simp only [show State.regionTarget { s with focus := { s.focus with region := region } } region = some r from hr]
  rfl

/-- Focus detached, or at the region's target already: only the region is recorded. -/
theorem State.reevaluate_stays {cause : Cause} {trigger : ModSet} {region : Region} {r : Target} {s : State}
    (hregion : s.regionAt (s.glide.px / 16) (s.glide.py / 16) = some region) (hr : s.regionTarget region = some r)
    (h : s.focus.detached = true ∨ r = s.focus.target) :
    s.reevaluate cause trigger = { s with focus := { s.focus with region := region } } := by
  rw [State.reevaluate_of_region hregion hr, if_pos (by simpa using h)]

/-- The elective switch is held off by the lock and by a held following button, while the focus target holds the point. -/
theorem State.reevaluate_heldOff {cause : Cause} {trigger : ModSet} {region : Region} {r : Target} {s : State}
    (hregion : s.regionAt (s.glide.px / 16) (s.glide.py / 16) = some region) (hr : s.regionTarget region = some r)
    (hholds : s.holdsPoint s.focus.target (s.glide.px / 16) (s.glide.py / 16) = true) (h : s.focus.lock = true ∨ s.FollowingHeld) :
    s.reevaluate cause trigger = { s with focus := { s.focus with region := region } } := by
  have hoff : (s.focus.lock || s.followingHeld) = true := Bool.or_eq_true_iff.2 (h.imp_right State.followingHeld_iff.2)
  rw [State.reevaluate_of_region hregion hr, hholds, hoff]
  exact ite_self _

/-- Otherwise the switch is made. -/
theorem State.reevaluate_switches {cause : Cause} {trigger : ModSet} {region : Region} {r : Target} {s : State}
    (hregion : s.regionAt (s.glide.px / 16) (s.glide.py / 16) = some region) (hr : s.regionTarget region = some r)
    (hd : s.focus.detached = false) (hne : r ≠ s.focus.target)
    (h : ¬(s.holdsPoint s.focus.target (s.glide.px / 16) (s.glide.py / 16) = true ∧ (s.focus.lock = true ∨ s.FollowingHeld))) :
    s.reevaluate cause trigger = State.switch r cause trigger region { s with focus := { s.focus with region := region } } := by
  rw [State.reevaluate_of_region hregion hr, if_neg (by simp [hd, hne]), if_neg]
  rw [Bool.and_eq_true_iff, Bool.or_eq_true_iff, State.followingHeld_iff]
  exact h

/-! ## Argument bytes (R181) -/

theorem numOpt_of_eq {n v : Nat} {i : Fin n} (h : v = i.val) : numOpt n v = some i := by
  subst h
  exact dif_pos i.isLt

theorem numOpt_of_ge {n v : Nat} (h : n ≤ v) : numOpt n v = none := dif_neg (Nat.not_lt.2 h)

/-- A flag answered as the byte that asked for it. -/
theorem byteOf_flag {b : Byte} (h : b.toNat ≤ 1) : byteOf (flagNum (decide (b = 1))) = b := by
  obtain hb | hb : b = 0 ∨ b = 1 := by bv_omega
  all_goals subst hb; rfl

theorem toNat_eq_one_iff {b : Byte} : b.toNat = 1 ↔ b = 1 := by bv_omega

/-! ## WINDOW_SHOW (R131, R171) -/

theorem State.doWindowShow_eq {u : Target} {w : Window} {a b : Byte} {s : State} (ha : a.toNat = w.val) (hb : b.toNat ≤ 1) :
    State.doWindowShow u [a, b] s = s.showWindow w (decide (b = 1)) := by
  have hw : numOpt 8 (arg [a, b] 1) = some w := numOpt_of_eq ha
  have harg : arg [a, b] 2 = b.toNat := rfl
  simp only [State.doWindowShow, hw, harg, hb, if_true, toNat_eq_one_iff]

/-- s with window w's membership set. -/
def State.withShown (w : Window) (shown : Bool) (s : State) : State := { s with windows := upd s.windows w fun r => { r with shown := shown } }

/-- A membership that changes: the re-evaluation keeps it, and the answer gives it. -/
theorem State.showWindow_changes {w : Window} {shown : Bool} {s : State} (he : s.active.windows[w].enabled = true)
    (hne : s.windows[w].shown ≠ shown) :
    s.showWindow w shown = ((s.withShown w shown).reevaluate .window 0, okWith [byteOf (flagNum shown)]) := by
  have hwindows : ((s.withShown w shown).reevaluate .window 0).windows = (s.withShown w shown).windows := by
    rw [(State.reevaluate_focusOnly .window 0 (s.withShown w shown)).1]
  have hshown : (((s.withShown w shown).reevaluate .window 0).windows[w]).shown = shown := by
    rw [hwindows]
    exact congrArg WindowState.shown (upd_get s.windows w fun r => { r with shown := shown })
  rw [State.showWindow, if_pos he, if_neg hne]
  show ((s.withShown w shown).reevaluate .window 0, okWith [byteOf (flagNum (((s.withShown w shown).reevaluate .window 0).windows[w]).shown)]) = _
  rw [hshown]

/-- A re-evaluation leaves the desk pointer (R60). -/
theorem State.reevaluate_pointer (c : Cause) (m : ModSet) (s : State) :
    (s.reevaluate c m).glide.px = s.glide.px ∧ (s.reevaluate c m).glide.py = s.glide.py := by
  rcases (s.reevaluate_pointing c m).2 with h | h <;> rw [h] <;> exact ⟨rfl, rfl⟩

end Sys2Proof.Machine

open Sys2Proof Sys2Proof.Machine

/-- Settles O48: the table of R60 (`State.reevaluate_stays`, `reevaluate_heldOff`, `reevaluate_switches`), and the replies of R171. -/
theorem windowShowSetsTheMembership : Obligations.WindowShowSetsTheMembership := by
  constructor
  · intro s cause trigger region r hregion hr
    exact ⟨State.reevaluate_stays hregion hr, fun _ _ => State.reevaluate_heldOff hregion hr,
      fun hd hne _ hlock hheld => State.reevaluate_switches hregion hr hd hne (by simp [hlock, hheld]),
      fun hd hne hholds => State.reevaluate_switches hregion hr hd hne fun h => hholds h.1⟩
  · intro t w f a b s h hargs
    have hbody : ∀ {x : State} {answer : Answer}, a.toNat = w.val → b.toNat ≤ 1 →
        State.showWindow w (decide (b = 1)) { s with ctrlLast := t } = (x, answer) →
        State.doWindowShow t f.args { s with ctrlLast := t } = (x, answer) := fun ha hb hx => by
      rw [hargs, State.doWindowShow_eq ha hb, hx]
    refine ⟨fun ha => ?_, fun ha hb => ?_, fun ha hb => ⟨fun he => ?_, fun he hsame => ?_, fun he hne => ?_⟩⟩
    · have hw : numOpt 8 (arg [a, b] 1) = none := numOpt_of_ge ha
      exact h.control_refused State.doWindowShow (by simp only [hargs, State.doWindowShow, hw]; rfl)
    · have hw : numOpt 8 (arg [a, b] 1) = some ⟨a.toNat, Nat.lt_succ_of_le ha⟩ := numOpt_of_eq rfl
      have hshown : ¬arg [a, b] 2 ≤ 1 := Nat.not_le.2 hb
      exact h.control_refused State.doWindowShow (by simp only [hargs, State.doWindowShow, hw, hshown, if_false]; rfl)
    · refine h.control_refused State.doWindowShow (hbody ha hb ?_)
      simp only [State.showWindow, he, Bool.false_eq_true, if_false]
    · refine h.control_refused State.doWindowShow (hbody ha hb ?_)
      simp only [State.showWindow, he, hsame, if_true, byteOf_flag hb, okWith]
    · have hx := hbody ha hb (State.showWindow_changes (s := { s with ctrlLast := t }) he hne)
      have honly := State.reevaluate_focusOnly .window 0 (State.withShown w (decide (b = 1)) { s with ctrlLast := t })
      have hattached := ((honly.2.2 t).1).trans h.1.2.2.1
      have hlast := (congrArg State.ctrlLast honly.1 :)
      obtain ⟨hpx, hpy⟩ := State.reevaluate_pointer .window 0 (State.withShown w (decide (b = 1)) { s with ctrlLast := t })
      rw [byteOf_flag hb] at hx
      exact ⟨_, (h.running_control State.doWindowShow hx).trans (congrArg Host.Outcome.next (State.reply_eq_answered hattached hlast)),
        ⟨rfl, honly⟩, hpx, hpy⟩
end

section
/-! PROOFS. The directed focus change and FOCUS_SET (O46). -/

namespace Sys2Proof.Machine

/-! ## The notice record only grows across a focus change (R173) -/

/-- From s to t no subject leaves a notice set. -/
structure State.GrowsNotices (s t : State) : Prop where
  keep : ∀ (k : NoticeKind) (i : Fin 16), has (s.subjects k) i = true → has (t.subjects k) i = true

theorem State.GrowsNotices.of_notices {s t : State} (h : t.notices = s.notices) : s.GrowsNotices t := by
  refine ⟨fun k i hi => ?_⟩
  rw [State.subjects, h]
  exact hi

theorem State.GrowsNotices.trans {s t u : State} (h : s.GrowsNotices t) (k : t.GrowsNotices u) : s.GrowsNotices u :=
  ⟨fun n i hi => k.keep n i (h.keep n i hi)⟩

theorem State.raise_growsNotices (k : NoticeKind) (i : Fin 16) (s : State) : s.GrowsNotices (s.raise k i) := by
  refine ⟨fun n j hj => ?_⟩
  rw [State.raise_has, hj]
  rfl

theorem State.offerReport_growsNotices (t : Target) (r : Report) (s : State) : s.GrowsNotices (s.offerReport t r) := by
  unfold State.offerReport
  split
  · have hoffered : s.GrowsNotices (s.modTarget t (TargetPort.offer s.desk.coalesce r)) := .of_notices rfl
    dsimp only
    split
    · exact hoffered.trans ((State.raise_growsNotices ..).trans (.of_notices rfl))
    · exact .of_notices rfl
  all_goals exact .of_notices rfl

theorem State.pointerReport_growsNotices (t : Target) (q : Nat × Nat) (w : Int) (changed entry : Bool) (s : State) :
    s.GrowsNotices (s.pointerReport t q w changed entry) := by
  have hlast : s.GrowsNotices (s.setLast t q) := .of_notices rfl
  unfold State.pointerReport
  dsimp only
  split
  · split
    · have hsync : s.GrowsNotices ((s.setLast t q).requestSync t) := .of_notices rfl
      split
      · exact hsync.trans (State.offerReport_growsNotices ..)
      · exact hsync
    · split
      · exact hlast.trans (State.offerReport_growsNotices ..)
      · split
        · exact hlast.trans (State.offerReport_growsNotices ..)
        · exact hlast
  · exact hlast.trans (State.offerReport_growsNotices ..)

theorem State.entry_growsNotices (b : Target) (s : State) : s.GrowsNotices (s.entry b) := by
  unfold State.entry
  split
  · exact State.pointerReport_growsNotices ..
  · exact .of_notices rfl

theorem State.wakeRequest_notices (t : Target) (s : State) : (s.wakeRequest t).notices = s.notices := by
  unfold State.wakeRequest
  split
  · rw [State.modTarget_notices]
    unfold State.sendTo
    split <;> rfl
  all_goals rfl

/-- A switch raises FOCUS_CHANGED for the new focus target (R53). -/
theorem State.switch_raises {b : Target} (c : Cause) (m : ModSet) (r : Region) {s : State} (hb : b ≠ s.focus.target) :
    has ((s.switch b c m r).subjects .focusChanged) (eightSubject b) = true := by
  have hraised : ∀ x : State, has ((x.raise .focusChanged (eightSubject b)).subjects .focusChanged) (eightSubject b) = true := fun x => by
    simp [State.raise_has]
  rw [State.switch, if_neg hb, State.switchTo, if_neg hb]
  refine (State.entry_growsNotices b _).keep _ _ ?_
  unfold State.arrive
  dsimp only
  split
  · rw [State.subjects, State.wakeRequest_notices]
    exact hraised _
  · exact hraised _

/-! ## The region at a point across a switch (R8) -/

/-- The region at a point depends on the plane only. -/
theorem State.regionAt_congr {s t : State} (h : t.scene.plane = s.scene.plane) : t.regionAt = s.regionAt := by
  simp only [State.scene, Plane.mk.injEq, funext_iff] at h
  obtain ⟨ha, hs, hm⟩ := h
  have hrect : t.windowRect = s.windowRect := by
    funext w
    simp only [State.windowRect, State.sourceGeometry, ha, hm]
  have hat : t.windowAt = s.windowAt := by
    funext x y w
    simp only [State.windowAt, State.windowDrawn, State.windowOnDesk, ha, hs, hrect]
  funext x y
  simp only [State.regionAt, ha, hat]

/-- A region that is recorded already is recorded by no change. -/
theorem State.recordRegion_recorded {s : State} (h : s.regionAt s.pointer.1 s.pointer.2 = some s.focus.region) : s.recordRegion = s := by
  rw [State.recordRegion_eq h]

/-- The region at the pointer where a switch was made is recorded by it. -/
theorem State.switch_recorded {b : Target} (c : Cause) (m : ModSet) {region : Region} {s : State} (hb : b ≠ s.focus.target)
    (h : s.regionAt s.pointer.1 s.pointer.2 = some region) : (s.switch b c m region).recordRegion = s.switch b c m region := by
  obtain ⟨hfocus, hglide⟩ := Prod.mk.inj (State.switch_pointing c m region hb)
  have hregion : (s.switch b c m region).regionAt = s.regionAt := State.regionAt_congr (by rw [State.switch_scene])
  refine State.recordRegion_recorded ?_
  rw [hregion, State.pointer, hglide, hfocus]
  exact h

/-- A switch with the region at its point: recorded by it, and again by no change. -/
theorem State.switch_at {t : Target} (c : Cause) (m : ModSet) {region : Region} {s : State} (ht : t ≠ s.focus.target)
    (h : s.regionAt s.pointer.1 s.pointer.2 = some region) :
    (s.switch t c m region).recordRegion = s.switch t c m region ∧ (s.switch t c m region).focus.region = region := by
  obtain ⟨hfocus, -⟩ := Prod.mk.inj (State.switch_pointing c m region ht)
  exact ⟨State.switch_recorded c m ht h, by rw [hfocus]⟩

/-! ## The directed focus change (R58) -/

theorem State.directed_toRegion {t : Target} {q : Nat × Nat} {s : State} (c : Cause) (m : ModSet) (hq : s.firstRegion t = some q) :
    s.directed t c m = ((s.warp q).switch t c m (s.warp q).regionHere).recordRegion := by
  rw [State.directed, hq]

theorem State.directed_detaching {t : Target} {s : State} (c : Cause) (m : ModSet) (hnone : s.firstRegion t = none)
    (ht : t ≠ s.focus.target) : s.directed t c m = ((s.detach t).switch t c m s.regionHere).recordRegion := by
  simp only [State.directed, hnone, if_neg ht]

theorem State.directed_nowhere {t : Target} {s : State} (c : Cause) (m : ModSet) (hnone : s.firstRegion t = none)
    (ht : t = s.focus.target) : s.directed t c m = s := by
  simp only [State.directed, hnone, if_pos ht]

theorem State.regionHere_eq {region : Region} {s : State} (h : s.regionAt s.pointer.1 s.pointer.2 = some region) : s.regionHere = region := by
  rw [State.regionHere, h, Option.getD_some]

theorem State.warp_pointer (q : Nat × Nat) (s : State) : (s.warp q).pointer = q :=
  Prod.ext (Nat.mul_div_cancel _ (by decide)) (Nat.mul_div_cancel _ (by decide))

theorem State.warp_regionAt {q : Nat × Nat} {region : Region} {s : State} (h : s.regionAt q.1 q.2 = some region) :
    (s.warp q).regionAt (s.warp q).pointer.1 (s.warp q).pointer.2 = some region := by
  rw [State.warp_pointer, State.regionAt_congr (s := s) (by rw [State.warp_scene])]
  exact h

/-- The old focus target heads the history after a switch (R51). -/
theorem mem_pushHistory {a b : Target} {h : List Target} (hab : b ≠ a) : a ∈ pushHistory a b h := by
  rw [pushHistory, List.filter_cons_of_pos (by simpa using hab.symm)]
  exact List.mem_cons_self

/-- Toward a first region whose own region is known: the warp, and one switch or the record (R58, R60). -/
theorem State.directed_toKnownRegion {t : Target} {q : Nat × Nat} {region : Region} {s : State} (c : Cause) (m : ModSet)
    (hq : s.firstRegion t = some q) (hregion : s.regionAt q.1 q.2 = some region) : (s.directed t c m).focus.region = region ∧
    (t ≠ s.focus.target → s.directed t c m = (s.warp q).switch t c m region) ∧
    (t = s.focus.target → s.directed t c m = { s.warp q with focus := { (s.warp q).focus with region := region } }) := by
  have hat := State.warp_regionAt hregion
  rw [State.directed_toRegion c m hq, State.regionHere_eq hat]
  by_cases ht : t = (s.warp q).focus.target
  · rw [State.switch, if_pos ht, State.recordRegion_eq hat]
    exact ⟨rfl, fun hne => absurd ht hne, fun _ => rfl⟩
  · obtain ⟨hrecorded, hfocus⟩ := State.switch_at c m ht hat
    rw [hrecorded]
    exact ⟨hfocus, fun _ => rfl, fun he => absurd he ht⟩

/-- Toward another target without a first region, the region at the pointer known: one switch with focus detached (R58, R60). -/
theorem State.directed_detachingKnown {t : Target} {region : Region} {s : State} (c : Cause) (m : ModSet) (hnone : s.firstRegion t = none)
    (ht : t ≠ s.focus.target) (hregion : s.regionAt s.pointer.1 s.pointer.2 = some region) : (s.directed t c m).focus.region = region ∧
    s.directed t c m = (s.detach t).switch t c m region := by
  have hat : (s.detach t).regionAt (s.detach t).pointer.1 (s.detach t).pointer.2 = some region := hregion
  have hne : t ≠ (s.detach t).focus.target := ht
  obtain ⟨hrecorded, hfocus⟩ := State.switch_at c m hne hat
  rw [State.directed_detaching c m hnone ht, State.regionHere_eq hregion, hrecorded]
  exact ⟨hfocus, rfl⟩

/-- What a directed focus change leaves and gives, whichever way it is made: target, lock and, where the target is another one, cause,
history and notice (R51, R53, R58). -/
structure State.DirectsTo (t : Target) (c : Cause) (s s' : State) : Prop where
  target  : s'.focus.target = t
  lock    : s'.focus.lock = s.focus.lock
  cause   : t ≠ s.focus.target → s'.focus.cause = c
  history : t ≠ s.focus.target → s.focus.target ∈ s'.focus.history
  raised  : t ≠ s.focus.target → has (s'.subjects .focusChanged) (eightSubject t) = true

theorem State.switch_directsTo (t : Target) (c : Cause) (m : ModSet) (r : Region) (s : State) :
    s.DirectsTo t c (s.switch t c m r).recordRegion := by
  by_cases ht : t = s.focus.target
  · rw [State.switch, if_pos ht]
    exact ⟨ht.symm, rfl, fun h => absurd ht h, fun h => absurd ht h, fun h => absurd ht h⟩
  · obtain ⟨hfocus, -⟩ := Prod.mk.inj (State.switch_pointing c m r ht)
    refine ⟨?_, ?_, fun _ => ?_, fun _ => ?_, fun _ => State.switch_raises c m r ht⟩
    · show (s.switch t c m r).focus.target = t
      rw [hfocus]
    · show (s.switch t c m r).focus.lock = s.focus.lock
      rw [hfocus]
    · show (s.switch t c m r).focus.cause = c
      rw [hfocus]
    · show s.focus.target ∈ (s.switch t c m r).focus.history
      rw [hfocus]
      exact mem_pushHistory ht

theorem State.directed_directsTo (t : Target) (c : Cause) (m : ModSet) (s : State) : s.DirectsTo t c (s.directed t c m) := by
  cases hq : s.firstRegion t with
  | some q =>
    rw [State.directed_toRegion c m hq]
    obtain ⟨htarget, hlock, hcause, hhistory, hraised⟩ := (s.warp q).switch_directsTo t c m (s.warp q).regionHere
    exact ⟨htarget, hlock, hcause, hhistory, hraised⟩
  | none =>
    by_cases ht : t = s.focus.target
    · rw [State.directed_nowhere c m hq ht]
      exact ⟨ht.symm, rfl, fun h => absurd ht h, fun h => absurd ht h, fun h => absurd ht h⟩
    · rw [State.directed_detaching c m hq ht]
      obtain ⟨htarget, hlock, hcause, hhistory, hraised⟩ := (s.detach t).switch_directsTo t c m s.regionHere
      exact ⟨htarget, hlock, hcause, hhistory, hraised⟩

/-- Pointers and detached flag after a switch, whether made or not. -/
theorem State.switch_pointers (t : Target) (c : Cause) (m : ModSet) (r : Region) (s : State) :
    (s.switch t c m r).recordRegion.glide.px = s.glide.px ∧ (s.switch t c m r).recordRegion.glide.py = s.glide.py ∧
    (s.switch t c m r).recordRegion.focus.detached = s.focus.detached ∧
    (s.switch t c m r).recordRegion.glide.detached = s.glide.detached := by
  by_cases ht : t = s.focus.target
  · rw [State.switch, if_pos ht]
    exact ⟨rfl, rfl, rfl, rfl⟩
  · obtain ⟨hfocus, hglide⟩ := Prod.mk.inj (State.switch_pointing c m r ht)
    show (s.switch t c m r).glide.px = _ ∧ (s.switch t c m r).glide.py = _ ∧ (s.switch t c m r).focus.detached = _ ∧
      (s.switch t c m r).glide.detached = _
    rw [hfocus, hglide]
    exact ⟨rfl, rfl, rfl, rfl⟩

/-- A directed change toward a first region warps there (R58). -/
theorem State.directed_pointers {t : Target} {q : Nat × Nat} {s : State} (c : Cause) (m : ModSet) (hq : s.firstRegion t = some q) :
    (s.directed t c m).glide.px = q.1 * 16 ∧ (s.directed t c m).glide.py = q.2 * 16 ∧ (s.directed t c m).focus.detached = false ∧
    (s.directed t c m).glide.detached = none := by
  rw [State.directed_toRegion c m hq]
  exact State.switch_pointers t c m _ (s.warp q)

/-- One toward another target without a first region starts the detached pointer in the middle of its desktop (R58). -/
theorem State.directed_detachedPointers {t : Target} {s : State} (c : Cause) (m : ModSet) (hnone : s.firstRegion t = none)
    (ht : t ≠ s.focus.target) : (s.directed t c m).glide.px = s.glide.px ∧ (s.directed t c m).glide.py = s.glide.py ∧
    (s.directed t c m).focus.detached = true ∧
    (s.directed t c m).glide.detached = some (s.active.desktops[t].dw / 2 * 16, s.active.desktops[t].dh / 2 * 16) := by
  rw [State.directed_detaching c m hnone ht]
  exact State.switch_pointers t c m _ (s.detach t)

/-! ## FOCUS_SET (R170) -/

theorem State.doFocusSet_eq {t u : Target} {b : Byte} {s : State} (hb : b.toNat = u.val) : State.doFocusSet t [b] s =
    (s.directed u .control 0, okWith [b, if (s.directed u .control 0).focus.detached then 1 else 0]) := by
  have hu : numOpt 8 (arg [b] 1) = some u := numOpt_of_eq hb
  have hbyte : byteOf u.val = b := by
    rw [← hb]
    exact BitVec.ofNat_toNat _ _
  have hflag : ∀ d : Bool, byteOf (flagNum d) = if d then 1 else 0 := by decide
  simp only [State.doFocusSet, hu, (s.directed_directsTo u .control 0).target, hbyte, hflag]

end Sys2Proof.Machine

open Sys2Proof Sys2Proof.Machine

/-- Settles O46, by the three ways a directed change goes (`State.directed_toRegion`, `directed_detaching`, `directed_nowhere`). -/
theorem focusSetDirectsTheFocus : Obligations.FocusSetDirectsTheFocus := by
  intro t u f b s h hargs
  refine ⟨fun hb => ?_, fun hb => ?_⟩
  · have hu : numOpt 8 (arg [b] 1) = none := numOpt_of_ge hb
    exact h.control_refused State.doFocusSet (by simp only [hargs, State.doFocusSet, hu]; rfl)
  have honly := State.directed_focusOnly u .control 0 { s with ctrlLast := t }
  have hattached := ((honly.2.2 t).1).trans h.1.2.2.1
  have hlast := (congrArg State.ctrlLast honly.1 :)
  have hbody := State.doFocusSet_eq (t := t) (s := { s with ctrlLast := t }) hb
  rw [← hargs] at hbody
  obtain ⟨htarget, hlock, hcause, hhistory, hraised⟩ := State.directed_directsTo u .control 0 { s with ctrlLast := t }
  refine ⟨_, (h.running_control State.doFocusSet hbody).trans (congrArg Host.Outcome.next (State.reply_eq_answered hattached hlast)),
    honly, htarget, hlock, fun hne => ⟨hcause hne, hhistory hne, hraised hne⟩, fun q hq => ?_, fun hnone => ?_⟩
  · obtain ⟨hx, hy, hd, hdetached⟩ := State.directed_pointers (s := { s with ctrlLast := t }) .control 0 hq
    exact ⟨hx, hy, hd, hdetached, fun region hregion => State.directed_toKnownRegion (s := { s with ctrlLast := t }) .control 0 hq hregion⟩
  · by_cases hu : u = s.focus.target
    · have hsame := State.directed_nowhere (s := { s with ctrlLast := t }) .control 0 hnone hu
      rw [hsame]
      exact ⟨rfl, rfl, fun hne => absurd hu hne, fun _ => rfl⟩
    · obtain ⟨hx, hy, hd, hdetached⟩ := State.directed_detachedPointers (s := { s with ctrlLast := t }) .control 0 hnone hu
      exact ⟨hx, hy, fun _ => ⟨hd, hdetached, fun region hregion =>
        State.directed_detachingKnown (s := { s with ctrlLast := t }) .control 0 hnone hu hregion⟩, fun he => absurd he hu⟩
end

section
/-! PROOFS. The frame that locks a head (O36). -/

namespace Sys2Proof.Machine

/-! ## A frame end that locks (R125) -/

/-- What the second frame of one geometry makes of its head. -/
def HeadState.lockedOn (g : Geometry) (picture : Nat) (x : HeadState) : HeadState :=
  { x with
    lock := .locked, candidate := none, measured := some (measuredGeometry g), serial := x.serial + 1
    latest := some ⟨g, picture, x.serial + 1⟩ }

theorem HeadState.frameEnd_locks {g : Geometry} {picture : Nat} {x : HeadState} (hlock : x.lock = .locking) (hg : x.candidate = some g) :
    x.frameEnd g picture = x.lockedOn g picture := by
  simp only [HeadState.frameEnd, hlock, hg, if_true]
  rfl

theorem upd_congr {α : Type} {n : Nat} {v : Vector α n} {i : Fin n} {f g : α → α} (h : f v[i] = g v[i]) : upd v i f = upd v i g :=
  congrArg (fun x => v.set i.val x i.isLt) h

/-- s with head h locked on the frame. -/
def State.withLock (h : Head) (g : Geometry) (picture : Nat) (s : State) : State :=
  { s with heads := upd s.heads h (HeadState.lockedOn g picture) }

/-- The re-evaluation after a lock (R127): only a measured geometry that is new makes one. -/
def State.reevaluatedAfter (old : Option Geometry) (g : Geometry) (s : State) : State :=
  if old = some (measuredGeometry g) then s else s.reevaluate .window 0

theorem State.headFrameEnd_locks {h : Head} {g : Geometry} {picture : Nat} {s : State} (hlock : s.heads[h].lock = .locking)
    (hg : s.heads[h].candidate = some g) : s.headFrameEnd h g picture =
      ((s.withLock h g picture).reevaluatedAfter s.heads[h].measured g).checkMismatch fun d => s.active.displays[d].base = some h := by
  have hmod : s.modHead h (HeadState.frameEnd g picture) = s.withLock h g picture :=
    congrArg (fun v => { s with heads := v }) (upd_congr (HeadState.frameEnd_locks hlock hg))
  have hlocks : s.heads[h].locks g = true := by rw [HeadState.locks, hlock, hg]; simp
  have hchanged : ∀ x : State, (if s.heads[h].measured != some (measuredGeometry g) then x.reevaluate .window 0 else x) =
      x.reevaluatedAfter s.heads[h].measured g := fun x => by
    by_cases hm : s.heads[h].measured = some (measuredGeometry g)
    · rw [State.reevaluatedAfter, if_pos hm, if_neg (by simpa using hm)]
    · rw [State.reevaluatedAfter, if_neg hm, if_pos (by simpa using hm)]
  unfold State.headFrameEnd
  dsimp only
  rw [hmod, if_pos hlocks, State.afterLock, hchanged]
  rfl

theorem State.reevaluatedAfter_focusOnly (old : Option Geometry) (g : Geometry) (s : State) : s.FocusChangeOnly (s.reevaluatedAfter old g) := by
  unfold State.reevaluatedAfter
  split
  · exact .refl s
  · exact State.reevaluate_focusOnly ..

theorem State.reevaluatedAfter_pointer (old : Option Geometry) (g : Geometry) (s : State) :
    (s.reevaluatedAfter old g).glide.px = s.glide.px ∧ (s.reevaluatedAfter old g).glide.py = s.glide.py := by
  unfold State.reevaluatedAfter
  split
  · exact ⟨rfl, rfl⟩
  · exact State.reevaluate_pointer ..

/-! ## The displays the geometry does not fit (R128) -/

theorem State.mismatches_of_larger {d : Display} {h : Head} {m : Geometry} {s : State} (henabled : s.active.displays[d].enabled = true)
    (hbase : s.active.displays[d].base = some h) (hm : s.heads[h].measured = some m)
    (hlarger : s.active.displays[d].width < m.w / 2 ^ s.active.displays[d].shift ∨
      s.active.displays[d].height < m.h / 2 ^ s.active.displays[d].shift) : s.mismatches d = true := by
  simp only [State.mismatches, henabled, hbase, hm, Bool.true_and, Bool.or_eq_true, decide_eq_true_eq]
  exact hlarger

/-- The check of some displays raises for those of them that mismatch, and changes nothing else. -/
theorem State.checkMismatch_spec (c : Display → Bool) (s : State) : ∃ notices sent,
    s.checkMismatch c = { s with notices := notices, sent := sent } ∧ s.sent <+: sent ∧
    (∀ k : NoticeKind, k ≠ .geometryMismatch → notices[k.index] = s.subjects k) ∧
    ∀ d : Display, c d = true → s.mismatches d = true → has notices[NoticeKind.geometryMismatch.index] (displaySubject d) = true := by
  obtain ⟨notices, sent, heq, hsent, hother, hset⟩ := raiseMismatch_spec ((List.finRange 6).filter fun d => c d && s.mismatches d) s
  exact ⟨notices, sent, heq, hsent, hother, fun d hc hd => hset d (.inl (by simp [hc, hd]))⟩

end Sys2Proof.Machine

open Sys2Proof Sys2Proof.Machine

/-- Settles O36: the head is locked, the region re-evaluated where its geometry is new, and then the displays on it are checked
(`State.headFrameEnd_locks`). -/
theorem secondEqualFrameLocksTheHead : Obligations.SecondEqualFrameLocksTheHead := by
  intro h g pic s hreset hlock hg
  have honly := State.reevaluatedAfter_focusOnly s.heads[h].measured g (s.withLock h g pic)
  obtain ⟨hpx, hpy⟩ := State.reevaluatedAfter_pointer s.heads[h].measured g (s.withLock h g pic)
  obtain ⟨notices, sent, heq, hsent, hother, hset⟩ := State.checkMismatch_spec (fun d => s.active.displays[d].base = some h)
    ((s.withLock h g pic).reevaluatedAfter s.heads[h].measured g)
  have hmeasured : (s.withLock h g pic).heads[h].measured = some (measuredGeometry g) := congrArg HeadState.measured (upd_get ..)
  have hexec : exec (.headFrameEnd h g pic) s = .next (s.headFrameEnd h g pic) := running_eq s _ hreset
  have hactive := (congrArg State.active honly.1 :)
  have hheads := (congrArg State.heads honly.1 :)
  refine ⟨_, hexec.trans (congrArg Host.Outcome.next ((State.headFrameEnd_locks hlock hg).trans heq)),
    ⟨honly.trans ⟨rfl, fun _ => rfl, fun _ => TargetPort.KeepsSettings.refl _⟩, rfl, hsent, hother⟩, hpx, hpy, fun d he hb hlarger => ?_⟩
  refine hset d (decide_eq_true hb) (State.mismatches_of_larger (h := h) (m := measuredGeometry g) ?_ ?_ ?_ ?_)
  · rw [hactive]; exact he
  · rw [hactive]; exact hb
  · rw [hheads]; exact hmeasured
  · rw [hactive]; exact hlarger
end

section
/-! SUPPORT. The hotkey table, the chord modifier set and what each action does (R65 to R78). -/

namespace Sys2Proof.Machine

/-! ## The first entry that matches (R65) -/

theorem find?_toList_eq_some_iff {α : Type} {n : Nat} {c : α → Bool} {v : Vector α n} {a : α} :
    v.toList.find? c = some a ↔ ∃ i : Fin n, v[i] = a ∧ c a = true ∧ ∀ j : Fin n, j < i → c v[j] = false := by
  rw [List.find?_eq_some_iff_getElem]
  constructor
  · rintro ⟨hc, i, hi, ha, hlt⟩
    have hin : i < n := by simpa using hi
    refine ⟨⟨i, hin⟩, by simpa using ha, hc, fun j hj => ?_⟩
    simpa using hlt j.val hj
  · rintro ⟨i, ha, hc, hlt⟩
    refine ⟨hc, i.val, by simp, by simpa using ha, fun j hj => ?_⟩
    simpa using hlt ⟨j, hj.trans i.isLt⟩ hj

theorem find?_toList_eq_none_iff {α : Type} {n : Nat} {c : α → Bool} {v : Vector α n} :
    v.toList.find? c = none ↔ ∀ i : Fin n, c v[i] = false := by
  rw [List.find?_eq_none]
  constructor
  · intro h i
    simpa using h v[i] (by simp)
  · intro h a ha
    obtain ⟨i, hi, rfl⟩ := Vector.mem_iff_getElem.1 (Vector.mem_toList_iff.1 ha)
    simpa using h ⟨i, hi⟩

/-- The entry is enabled, of the kind, and has the press for trigger (R65). -/
abbrev HotkeyEntry.Answers (k : HotkeyKind) (i : KeyItem) (e : HotkeyEntry) : Prop := e.enabled = true ∧ e.kind = k ∧ e.trigger = i

theorem State.findHotkey_eq_some_iff {s : State} {k : HotkeyKind} {i : KeyItem} {c : HotkeyEntry → Bool} {e : HotkeyEntry} :
    s.findHotkey k i c = some e ↔ ∃ n : Fin 24, s.hotkeys[n] = e ∧ (e.Answers k i ∧ c e = true) ∧
      ∀ j : Fin 24, j < n → ¬((s.hotkeys[j]).Answers k i ∧ c s.hotkeys[j] = true) := by
  rw [State.findHotkey, find?_toList_eq_some_iff]
  simp only [HotkeyEntry.Answers, Bool.and_eq_true, decide_eq_true_eq, ← Bool.not_eq_true, and_assoc]

/-- The press is the trigger of an enabled entry of the kind. -/
abbrev State.Triggers (s : State) (k : HotkeyKind) (i : KeyItem) : Prop := ∃ n : Fin 24, (s.hotkeys[n]).Answers k i

theorem State.findHotkey_eq_none_iff {s : State} {k : HotkeyKind} {i : KeyItem} :
    (s.findHotkey k i fun _ => true) = none ↔ ¬s.Triggers k i := by
  rw [State.findHotkey, find?_toList_eq_none_iff, not_exists]
  simp only [HotkeyEntry.Answers, Bool.and_true, ← Bool.not_eq_true, Bool.and_eq_true, decide_eq_true_eq, and_assoc]

theorem State.findHotkey_isSome_iff {s : State} {k : HotkeyKind} {i : KeyItem} :
    (s.findHotkey k i fun _ => true).isSome = true ↔ s.Triggers k i := by
  rw [Option.isSome_iff_ne_none, ne_eq, State.findHotkey_eq_none_iff, not_not]

/-! ## Modifier sets (R66, R67, R78) -/

theorem HotkeyEntry.modsMatch_iff {e : HotkeyEntry} {held : ModSet} : e.modsMatch held = true ↔
    (e.sideBlind = true → foldPairs e.mods = foldPairs held) ∧ (e.sideBlind = false → e.mods = held) := by
  unfold HotkeyEntry.modsMatch
  cases e.sideBlind <;> simp

theorem has_closePairs (x : ModSet) (m : Modifier) : has (closePairs x) m = (has x m || has x (m + 4)) := by
  have hbits : ∀ m : Modifier, (closePairs x).getLsbD m.val = (x.getLsbD m.val || x.getLsbD (m + 4).val) := by
    intro m
    fin_cases m <;> simp [closePairs]
  exact hbits m

theorem HotkeyEntry.has_triggerMods (e : HotkeyEntry) (m : Modifier) :
    has e.triggerMods m = (has e.mods m || e.sideBlind && has e.mods (m + 4)) := by
  unfold HotkeyEntry.triggerMods
  cases e.sideBlind
  · simp
  · simp [has_closePairs]

/-- Which members a fold of unions has. -/
theorem has_foldl_or {n : Nat} {c : Port → Bool} {g : Port → BitVec n} {m : Fin n} (l : List Port) (x : BitVec n) :
    has (l.foldl (fun acc q => if c q then acc ||| g q else acc) x) m = true ↔ has x m = true ∨ ∃ q ∈ l, c q = true ∧ has (g q) m = true := by
  induction l generalizing x with
  | nil => simp
  | cons q l ih =>
    rw [List.foldl_cons, ih]
    cases hq : c q <;> simp [hq, has_or, or_assoc]

theorem State.has_chordMods (s : State) (p : Port) (mods : ModSet) (m : Modifier) : has (s.chordMods p mods) m = true ↔
    has mods m = true ∨ ∃ q : Port, q ≠ p ∧ s.consoles[q].pin = none ∧ s.ports[q].inChord = true ∧ has s.ports[q].snapMods m = true := by
  rw [State.chordMods, has_foldl_or (c := fun q => q != p && s.chordPort q) (g := fun q => s.ports[q].snapMods)]
  simp [State.chordPort, State.pin, and_assoc]

/-! ## Focus actions (R72, R73) -/

theorem HotkeyEntry.arg8_eq {e : HotkeyEntry} {t : Fin 8} (h : e.argument = t.val) : e.arg8 = t := by
  rw [HotkeyEntry.arg8, numFin, dif_pos (h ▸ t.isLt)]
  exact Fin.ext h

/-- The focus lock or an ABSENT target refuses a focus action (R72). -/
abbrev State.RefusesFocus (e : HotkeyEntry) (t : Target) (s : State) : Prop :=
  (s.focus.lock = true ∧ e.lockedOk = false) ∨ s.targets[t].power = .absent

theorem State.lockRefuses_iff {e : HotkeyEntry} {s : State} : s.lockRefuses e = true ↔ s.focus.lock = true ∧ e.lockedOk = false := by
  rw [State.lockRefuses, Bool.and_eq_true, Bool.not_eq_true']

theorem State.isAbsent_iff {t : Target} {s : State} : s.isAbsent t = true ↔ s.targets[t].power = .absent := decide_eq_true_iff

theorem State.focusAction_eq (e : HotkeyEntry) (trigger : ModSet) (t : Target) (s : State) : s.focusAction e trigger t =
    if s.RefusesFocus e t then s else s.directed t .hotkey trigger := by
  unfold State.focusAction
  simp only [Bool.or_eq_true, State.lockRefuses_iff, State.isAbsent_iff]

/-- The seven other targets in the order FOCUS_NEXT tries them (R73). -/
theorem rotation_others (t : Target) : (rotation (succWrap t)).take 7 = (List.finRange 7).map fun k => t + k.succ := by
  revert t
  decide

theorem State.nextTarget_eq_none {s : State} (h : ∀ t : Target, t ≠ s.focus.target → s.targets[t].power = .absent) :
    s.nextTarget = none := by
  rw [State.nextTarget, rotation_others, List.find?_eq_none]
  intro t ht
  obtain ⟨k, -, rfl⟩ := List.mem_map.1 ht
  simpa [State.isAbsent] using h _ (by simp)

theorem State.nextTarget_eq_some {s : State} {n : Fin 8} (hn : n ≠ 0) (hp : s.targets[s.focus.target + n].power ≠ .absent)
    (hlt : ∀ k : Fin 8, k ≠ 0 → k < n → s.targets[s.focus.target + k].power = .absent) : s.nextTarget = some (s.focus.target + n) := by
  obtain ⟨i, rfl⟩ := Fin.exists_succ_eq.2 hn
  have hfind : (List.finRange 7).find? ((fun t => !s.isAbsent t) ∘ fun k => s.focus.target + k.succ) = some i :=
    find?_finRange_eq_some (by simpa [State.isAbsent] using hp) fun j hj => by
      simpa [State.isAbsent] using hlt j.succ (Fin.succ_ne_zero j) (Fin.succ_lt_succ_iff.2 hj)
  rw [State.nextTarget, rotation_others, List.find?_map, hfind]
  rfl

/-! ## WAKE (R76) -/

theorem State.wakeRequest_refused {t : Target} {s : State} (h : s.targets[t].power ≠ .suspended) : s.wakeRequest t = s := by
  unfold State.wakeRequest
  split
  · contradiction
  all_goals rfl

theorem State.wakeRequest_sends {t : Target} {s : State} (h : s.targets[t].power = .suspended) (ha : s.targets[t].attached = true) :
    s.wakeRequest t = { s with
      sent := s.sent ++ [.wake t]
      targets := upd s.targets t fun p => { p with power := .waking, retry := 0, wakeTimer := some s.desk.wakeTimeout } } := by
  simp only [State.wakeRequest, h, State.sendTo, if_pos ha]
  rfl

/-! ## PRESET (R77) -/

/-- The preset of an action changes the shown set. -/
abbrev State.ChangesShown (set : WindowSet) (s : State) : Prop := ∃ w : Window, (s.setShown set).windows[w].shown ≠ s.windows[w].shown

theorem State.shownSet_eq_iff {s t : State} : t.shownSet = s.shownSet ↔ ∀ w : Window, t.windows[w].shown = s.windows[w].shown := by
  constructor
  · intro h w
    have hw := congrArg (fun x => has x w) h
    simpa only [State.shownSet, has_maskOf] using hw
  · intro h
    simp only [State.shownSet, h]

theorem State.setShown_window (set : WindowSet) (w : Window) (s : State) : (s.setShown set).windows[w] =
    { s.windows[w] with shown := has set w && s.active.windows[w].enabled } := by
  simp only [State.setShown, updAll_get]

theorem State.setShown_unchanged {set : WindowSet} {s : State} (h : ¬s.ChangesShown set) : s.setShown set = s := by
  have hwindows : (s.setShown set).windows = s.windows := vector_ext fun w => by
    have hshown : (s.setShown set).windows[w].shown = s.windows[w].shown := not_not.1 fun hne => h ⟨w, hne⟩
    rw [State.setShown_window] at hshown ⊢
    rw [show (has set w && s.active.windows[w].enabled) = s.windows[w].shown from hshown]
  show ({ s with windows := (s.setShown set).windows } : State) = s
  rw [hwindows]

/-- The focus action of preset n is refused, or it has none. -/
abbrev State.RefusesPreset (n : Fin 8) (e : HotkeyEntry) (s : State) : Prop :=
  ∀ t : Target, s.presets[n].focus = some t → s.RefusesFocus e t

theorem State.presetFocus_iff {e : HotkeyEntry} {t : Target} {s : State} : (!s.isAbsent t && !s.lockRefuses e) = true ↔ ¬s.RefusesFocus e t := by
  rw [State.RefusesFocus, ← State.lockRefuses_iff, ← State.isAbsent_iff]
  generalize s.lockRefuses e = a
  generalize s.isAbsent t = b
  revert a b
  decide

theorem State.applyPreset_refused {e : HotkeyEntry} {trigger : ModSet} {n : Fin 8} {s : State} (hn : e.arg8 = n) (h : s.RefusesPreset n e) : s.applyPreset e trigger =
    if (s.setShown s.presets[n].windows).shownSet = s.shownSet then s.setShown s.presets[n].windows
    else (s.setShown s.presets[n].windows).reevaluate .window trigger := by
  subst hn
  have hnone : (s.presets[e.arg8].focus.filter fun t => !s.isAbsent t && !s.lockRefuses e) = none := by
    rw [Option.filter_eq_none_iff]
    intro t ht
    rw [State.presetFocus_iff, not_not]
    exact h t ht
  simp only [State.applyPreset, hnone]

theorem State.applyPreset_taken {e : HotkeyEntry} {trigger : ModSet} {n : Fin 8} {t : Target} {s : State} (hn : e.arg8 = n) (ht : s.presets[n].focus = some t)
    (h : ¬s.RefusesPreset n e) : s.applyPreset e trigger =
    if t = s.focus.target && ((s.setShown s.presets[n].windows).firstRegion t).isNone then
      (s.setShown s.presets[n].windows).reevaluate .window trigger
    else (s.setShown s.presets[n].windows).directed t .hotkey trigger := by
  subst hn
  have hsome : (s.presets[e.arg8].focus.filter fun t => !s.isAbsent t && !s.lockRefuses e) = some t := by
    rw [ht, Option.filter_some, if_pos]
    exact State.presetFocus_iff.2 fun hr => h fun u hu => Option.some.inj (ht.symm.trans hu) ▸ hr
  simp only [State.applyPreset, hsome]
  rfl

/-! ## The detector across an action (R67, R74) -/

theorem State.FocusChangeOnly.detector {s t : State} (h : s.FocusChangeOnly t) : t.detector = s.detector :=
  (congrArg State.detector h.1 :)

/-- Only LEADER touches the detector. -/
theorem State.fire_detector (e : HotkeyEntry) (trigger : ModSet) (s : State) : (s.fire e trigger).detector =
    if e.action = .leader then ⟨.leader, none, none, some s.desk.leaderTime⟩ else s.detector := by
  have hdirected : ∀ (t : Target) (x : State), (x.directed t .hotkey trigger).detector = x.detector := fun t x => (x.directed_focusOnly t .hotkey trigger).detector
  have hreevaluated : ∀ x : State, (x.reevaluate .window trigger).detector = x.detector := fun x => (x.reevaluate_focusOnly .window trigger).detector
  have haction : ∀ t : Target, (s.focusAction e trigger t).detector = s.detector := fun t => by
    unfold State.focusAction
    split
    · rfl
    · exact hdirected t s
  unfold State.fire
  split <;> rename_i h
  all_goals rw [h]
  case h_9 => rfl
  case h_1 => exact haction _
  case h_2 => split; exacts [haction _, rfl]
  case h_3 => split; exacts [haction _, rfl]
  case h_4 => rfl
  case h_5 => rfl
  case h_6 =>
    unfold State.windowToggle
    split
    · exact hreevaluated _
    · rfl
  case h_7 =>
    unfold State.applyPreset
    dsimp only
    split
    · split
      · rfl
      · exact hreevaluated _
    · split
      · exact hreevaluated _
      · exact hdirected _ _
  case h_8 => exact (s.wakeRequest_focusOnly e.arg8).detector

end Sys2Proof.Machine
end

section
/-! PROOFS. The hotkey detector (O16). -/

namespace Sys2Proof.Machine

/-! ## A press in each state of the detector (R65 to R71) -/

theorem State.chordFor_key_iff {s : State} {k : Key} {held : ModSet} {e : HotkeyEntry} : s.chordFor (.key k) held = some e ↔
    ∃ n : Fin 24, s.hotkeys[n] = e ∧ (e.Answers .chord (.key k) ∧ e.modsMatch held = true) ∧
      ∀ j : Fin 24, j < n → ¬((s.hotkeys[j]).Answers .chord (.key k) ∧ (s.hotkeys[j]).modsMatch held = true) :=
  State.findHotkey_eq_some_iff

/-- The detector in IDLE with no candidate. -/
def State.detectorIdle (s : State) : State := s.setDetector Detector.initial

theorem State.detectPress_idle {p : Port} {i : KeyItem} {held : ModSet} {s : State} (h : s.detector.state = .idle) :
    s.detectPress p i held = s.pressIdle p i held := by
  rw [State.detectPress, h]

theorem State.detectPress_chord {p : Port} {i : KeyItem} {held : ModSet} {e : HotkeyEntry} {s : State} (h : s.detector.state = .idle)
    (he : s.chordFor i held = some e) :
    s.detectPress p i held = ((s.detectorIdle.fire e e.triggerMods).settlePress e p i, true) := by
  rw [State.detectPress_idle h, State.pressIdle, he]
  rfl

theorem State.detectPress_unmatched {p : Port} {i : KeyItem} {held : ModSet} {s : State} (h : s.detector.state = .idle)
    (hnone : s.chordFor i held = none) : s.detectPress p i held =
      ((s.setDetector ⟨.idle, if (s.findHotkey .tap2 i fun _ => true).isSome then some (i, p) else none, none, none⟩).handPress p i,
        false) := by
  rw [State.detectPress_idle h, State.pressIdle, hnone]

theorem State.detectPress_secondTap {p : Port} {i : KeyItem} {held : ModSet} {e : HotkeyEntry} {s : State}
    (h : s.detector.state = .tapWait) (hc : s.detector.candidate = some (i, p)) (he : (s.findHotkey .tap2 i fun _ => true) = some e) :
    s.detectPress p i held = ((s.detectorIdle.fire e 0).handPress p i, false) := by
  simp only [State.detectPress, h, State.pressTapWait, hc, if_true, he]
  rfl

theorem State.detectPress_follow {p : Port} {i : KeyItem} {held : ModSet} {e : HotkeyEntry} {s : State}
    (h : s.detector.state = .leader) (he : (s.findHotkey .follow i fun _ => true) = some e) :
    s.detectPress p i held = ((s.detectorIdle.fire e 0).settlePress e p i, false) := by
  simp only [State.detectPress, h, State.pressLeader, he]
  rfl

/-- Every other press in TAP_WAIT and in LEADER is taken as in IDLE (R69, R71). -/
theorem State.detectPress_asIdle {p : Port} {i : KeyItem} {held : ModSet} {s : State}
    (h : (s.detector.state = .tapWait ∧ (s.detector.candidate ≠ some (i, p) ∨ ¬s.Triggers .tap2 i)) ∨
      (s.detector.state = .leader ∧ ¬s.Triggers .follow i)) :
    s.detectPress p i held = s.detectorIdle.detectPress p i held := by
  have hidle : s.detectorIdle.detectPress p i held = s.detectorIdle.pressIdle p i held := State.detectPress_idle rfl
  rw [hidle]
  rcases h with ⟨h, hother⟩ | ⟨h, hnone⟩
  · have hnone : (if s.detector.candidate = some (i, p) then s.findHotkey .tap2 i fun _ => true else none) = none := by
      split
      · rename_i hc
        exact State.findHotkey_eq_none_iff.2 (hother.resolve_left (not_not.2 hc))
      · rfl
    simp only [State.detectPress, h, State.pressTapWait, hnone]
    rfl
  · simp only [State.detectPress, h, State.pressLeader, State.findHotkey_eq_none_iff.2 hnone]
    rfl

/-- A first entry without a further condition. -/
theorem State.findHotkey_first {s : State} {k : HotkeyKind} {i : KeyItem} {e : HotkeyEntry} {n : Fin 24} (hn : s.hotkeys[n] = e)
    (he : e.Answers k i) (hlt : ∀ m : Fin 24, m < n → ¬(s.hotkeys[m]).Answers k i) : (s.findHotkey k i fun _ => true) = some e :=
  State.findHotkey_eq_some_iff.2 ⟨n, hn, ⟨he, rfl⟩, fun m hm h => hlt m hm h.1⟩

/-! ## The actions (R72 to R77) -/

section
variable {e : HotkeyEntry} {trigger : ModSet} {s : State}

theorem State.fire_focus {t : Target} (h : e.action = .focus) (ht : e.argument = t.val) :
    s.fire e trigger = s.focusAction e trigger t := by
  simp only [State.fire, h, HotkeyEntry.arg8_eq ht]

theorem State.fire_focusNext_some {t : Target} (h : e.action = .focusNext) (ht : s.nextTarget = some t) :
    s.fire e trigger = s.focusAction e trigger t := by
  simp only [State.fire, h, ht]

theorem State.fire_focusNext_none (h : e.action = .focusNext) (ht : s.nextTarget = none) : s.fire e trigger = s := by
  simp only [State.fire, h, ht]

theorem State.fire_focusBack_cons {t : Target} {rest : List Target} (h : e.action = .focusBack) (ht : s.focus.history = t :: rest) :
    s.fire e trigger = s.focusAction e trigger t := by
  simp only [State.fire, h, ht, List.head?_cons]

theorem State.fire_focusBack_nil (h : e.action = .focusBack) (ht : s.focus.history = []) : s.fire e trigger = s := by
  simp only [State.fire, h, ht, List.head?_nil]

theorem State.fire_focusLock (h : e.action = .focusLock) :
    s.fire e trigger = { s with focus := { s.focus with lock := !s.focus.lock } } := by
  simp only [State.fire, h]

theorem State.fire_glideToggle (h : e.action = .glideToggle) :
    s.fire e trigger = { s with desk := { s.desk with glideEnable := !s.desk.glideEnable } } := by
  simp only [State.fire, h]

theorem State.fire_windowToggle {w : Window} (h : e.action = .windowToggle) (hw : e.argument = w.val) :
    s.fire e trigger = s.windowToggle w trigger := by
  simp only [State.fire, h, HotkeyEntry.arg8_eq hw]

theorem State.fire_preset (h : e.action = .preset) : s.fire e trigger = s.applyPreset e trigger := by
  simp only [State.fire, h]

theorem State.fire_wake {t : Target} (h : e.action = .wake) (ht : e.argument = t.val) : s.fire e trigger = s.wakeRequest t := by
  simp only [State.fire, h, HotkeyEntry.arg8_eq ht]

theorem State.fire_leader (h : e.action = .leader) : s.fire e trigger = s.openLeader := by
  simp only [State.fire, h]

end

/-- A preset refused its focus action changes the shown set, and re-evaluates where it did (R77). -/
theorem State.applyPreset_shown {e : HotkeyEntry} {trigger : ModSet} {n : Fin 8} {s : State} (hn : e.argument = n.val)
    (h : s.RefusesPreset n e) :
    (s.ChangesShown s.presets[n].windows → s.applyPreset e trigger = (s.setShown s.presets[n].windows).reevaluate .window trigger) ∧
    (¬s.ChangesShown s.presets[n].windows → s.applyPreset e trigger = s) := by
  have hset : (s.setShown s.presets[n].windows).shownSet = s.shownSet ↔ ¬s.ChangesShown s.presets[n].windows := by
    rw [State.shownSet_eq_iff, State.ChangesShown, not_exists]
    simp only [not_not]
  rw [State.applyPreset_refused (HotkeyEntry.arg8_eq hn) h]
  refine ⟨fun hc => if_neg fun hs => hset.1 hs hc, fun hc => ?_⟩
  rw [if_pos (hset.2 hc), State.setShown_unchanged hc]

/-- A preset whose focus action is taken (R77; notes/assumptions/24.md). -/
theorem State.applyPreset_directs {e : HotkeyEntry} {trigger : ModSet} {n : Fin 8} {t : Target} {s : State} (hn : e.argument = n.val)
    (ht : s.presets[n].focus = some t) (h : ¬s.RefusesPreset n e) :
    (t ≠ s.focus.target ∨ (s.setShown s.presets[n].windows).firstRegion t ≠ none →
      s.applyPreset e trigger = (s.setShown s.presets[n].windows).directed t .hotkey trigger) ∧
    (t = s.focus.target → (s.setShown s.presets[n].windows).firstRegion t = none →
      s.applyPreset e trigger = (s.setShown s.presets[n].windows).reevaluate .window trigger) := by
  rw [State.applyPreset_taken (HotkeyEntry.arg8_eq hn) ht h]
  refine ⟨fun hother => if_neg ?_, fun hf hnone => if_pos ?_⟩
  all_goals rw [Bool.and_eq_true, decide_eq_true_eq, Option.isNone_iff_eq_none]
  · exact fun hboth => hother.elim (fun hne => hne hboth.1) fun hne => hne hboth.2
  · exact ⟨hf, hnone⟩

end Sys2Proof.Machine

open Sys2Proof Sys2Proof.Machine

/-- Settles O16, part by part: the consumed chord, the matched entry, each action (`State.fire_focus` and its siblings), the chord modifier
set (`State.has_chordMods`), and the presses in the other states (`State.detectPress_secondTap`, `detectPress_follow`,
`detectPress_asIdle`). -/
theorem firedChordConsumesItsTrigger : Obligations.FiredChordConsumesItsTrigger := by
  refine ⟨fun p k held e s hidle he hpass => ?_, fun p k held e s hidle he => State.detectPress_chord hidle he,
    fun s k held e m => ⟨?_, rfl, e.has_triggerMods m⟩, fun e trigger s => ?_, State.has_chordMods, fun p i held s =>
    ⟨fun hidle hnone => ⟨fun htap => ?_, fun htap => ?_⟩, fun e htap hc he => ?_, fun e hlead he => ?_, State.detectPress_asIdle⟩⟩
  · have hdetector := State.fire_detector e e.triggerMods s.detectorIdle
    have hport : ((s.detectorIdle.fire e e.triggerMods).modPort p (ConsolePort.suppress (.key k))).ports[p] =
      (s.detectorIdle.fire e e.triggerMods).ports[p].suppress (.key k) := upd_get ..
    have hpress : s.detectPress p (.key k) held = ((s.detectorIdle.fire e e.triggerMods).modPort p (ConsolePort.suppress (.key k)), true) := by
      rw [State.detectPress_chord hidle he, State.settlePress, hpass]
      rfl
    rw [hpress]
    refine ⟨?_, rfl, fun hother => hdetector.trans (if_neg hother), fun hleader => hdetector.trans (if_pos hleader)⟩
    rw [hport, ConsolePort.suppress_suppressed, decide_eq_true rfl, Bool.or_true]
  · simp only [State.chordFor_key_iff, HotkeyEntry.modsMatch_iff, HotkeyEntry.Answers, and_assoc]
    rfl
  · refine ⟨fun h t ht => ?_, fun h => ⟨fun hall => State.fire_focusNext_none h (State.nextTarget_eq_none hall), fun n hn hp hlt => ?_⟩,
      fun h => ⟨State.fire_focusBack_nil h, fun t rest ht => ?_⟩, State.fire_focusLock, State.fire_glideToggle,
      fun h w hw => ⟨fun he => ?_, fun he => ?_⟩, fun h n hn => ?_, fun h t ht => ⟨fun hp => ?_, fun hp ha => ?_⟩, State.fire_leader⟩
    · rw [State.fire_focus h ht, State.focusAction_eq]
    · rw [State.fire_focusNext_some h (State.nextTarget_eq_some hn hp hlt), State.focusAction_eq]
    · rw [State.fire_focusBack_cons h ht, State.focusAction_eq]
    · rw [State.fire_windowToggle h hw, State.windowToggle, he]
      rfl
    · rw [State.fire_windowToggle h hw, State.windowToggle, if_pos he]
      rfl
    · rw [State.fire_preset h]
      refine ⟨fun hr hc => (State.applyPreset_shown hn hr).1 hc, fun hr hc => (State.applyPreset_shown hn hr).2 hc,
        fun t ht hr => ?_⟩
      exact State.applyPreset_directs hn ht hr
    · rw [State.fire_wake h ht, State.wakeRequest_refused hp]
    · rw [State.fire_wake h ht, State.wakeRequest_sends hp ha]
  · rw [State.detectPress_unmatched hidle hnone, if_pos (State.findHotkey_isSome_iff.2 htap)]
    rfl
  · rw [State.detectPress_unmatched hidle hnone, if_neg (mt State.findHotkey_isSome_iff.1 htap)]
    rfl
  · obtain ⟨n, hn, hanswers, hlt⟩ := he
    exact State.detectPress_secondTap htap hc (State.findHotkey_first hn hanswers hlt)
  · obtain ⟨n, hn, hanswers, hlt⟩ := he
    exact State.detectPress_follow hlead (State.findHotkey_first hn hanswers hlt)
end

section
/-! SUPPORT. Clamping, overshoot and settling: where a pointer event's candidate ends (R83 to R88). -/

namespace Sys2Proof.Machine

/-! ## Clamping to a rectangle (R88) -/

theorem clampAxis_below {lo hi : Nat} {q : Int} (h : q / 16 < lo) : clampAxis lo hi q = lo * 16 := if_pos h

theorem clampAxis_beyond {lo hi : Nat} {q : Int} (hlo : lo < hi) (h : (hi : Int) ≤ q / 16) : clampAxis lo hi q = (hi - 1) * 16 + 15 := by
  rw [clampAxis, if_neg (by omega), if_pos h]

theorem clampAxis_within {lo hi : Nat} {q : Int} (hlo : (lo : Int) ≤ q / 16) (h : q / 16 < hi) : (clampAxis lo hi q : Int) = q := by
  rw [clampAxis, if_neg (by omega), if_neg (by omega)]
  omega

theorem Rect.not_isEmpty_iff {r : Rect} : r.isEmpty = false ↔ 0 < r.w ∧ 0 < r.h := by
  simp [Rect.isEmpty, Nat.pos_iff_ne_zero]

/-! ## Overshoot (R87) -/

/-- On one axis: how far the coordinate lies beyond the interval, 0 within it, and beyond which edge. -/
theorem axisOvershoot_spec {lo n : Nat} (low high : Edge) (c : Int) (hn : 0 < n) :
    let o := axisOvershoot lo (lo + n) low high c
    let d := max ((lo : Int) - c) (c - ((lo : Int) + n - 1))
    o.1 = max 0 d ∧ (0 < d → (o.2 = low ∧ o.1 = lo - c) ∨ (o.2 = high ∧ o.1 = c - (lo + n - 1))) := by
  dsimp only
  unfold axisOvershoot
  split
  · exact ⟨by dsimp only; omega, fun _ => .inl ⟨rfl, rfl⟩⟩
  · split
    · exact ⟨by dsimp only; omega, fun _ => .inr ⟨rfl, by dsimp only; omega⟩⟩
    · exact ⟨by dsimp only; omega, fun hd => by omega⟩

/-- The overshoot beyond a rectangle is the largest distance beyond an edge, on equal ones the x edge's (R87). -/
theorem Rect.overshoot_spec {r : Rect} {cx cy : Int} (hw : 0 < r.w) (hh : 0 < r.h)
    (hout : ¬((r.x : Int) ≤ cx ∧ cx < (r.x : Int) + r.w ∧ (r.y : Int) ≤ cy ∧ cy < (r.y : Int) + r.h)) :
    let o := r.overshoot cx cy
    let ox := max (r.x - cx) (cx - (r.x + r.w - 1))
    let oy := max (r.y - cy) (cy - (r.y + r.h - 1))
    1 ≤ o.1 ∧ (o.1 : Int) = max ox oy ∧
    match o.2 with
    | .left => (o.1 : Int) = r.x - cx
    | .right => (o.1 : Int) = cx - (r.x + r.w - 1)
    | .top => (o.1 : Int) = r.y - cy ∧ ox < o.1
    | .bottom => (o.1 : Int) = cy - (r.y + r.h - 1) ∧ ox < o.1 := by
  obtain ⟨hx, hxedge⟩ := axisOvershoot_spec (lo := r.x) .left .right cx hw
  obtain ⟨hy, hyedge⟩ := axisOvershoot_spec (lo := r.y) .top .bottom cy hh
  unfold Rect.overshoot
  dsimp only at hx hxedge hy hyedge ⊢
  split
  · have hbeyond : 0 < max ((r.x : Int) - cx) (cx - (r.x + r.w - 1)) := by omega
    rcases hxedge hbeyond with ⟨hedge, hvalue⟩ | ⟨hedge, hvalue⟩
    all_goals
      rw [hedge]
      exact ⟨by omega, by omega, by omega⟩
  · have hbeyond : 0 < max ((r.y : Int) - cy) (cy - (r.y + r.h - 1)) := by omega
    rcases hyedge hbeyond with ⟨hedge, hvalue⟩ | ⟨hedge, hvalue⟩
    all_goals
      rw [hedge]
      exact ⟨by omega, by omega, by omega, by omega⟩

end Sys2Proof.Machine
end

section
/-! SUPPORT. Where stage 2 of a pointer event settles the pointer (R84 to R87). -/

namespace Sys2Proof.Machine

/-! ## The accumulator at the start of stage 2 (R87) -/

/-- The accumulator that a step leaves: it clears one whose pressed edge it leads away from (R87; notes/assumptions/14.md). -/
def State.keptPressure (sx sy : Int) (s : State) : Option Pressure := s.glide.pressure.filter fun pr => !awayFrom pr.edge sx sy

/-- s with another accumulator. -/
def State.withPressure (pr : Option Pressure) (s : State) : State := { s with glide := { s.glide with pressure := pr } }

theorem State.awayTest_eq (sx sy : Int) (s : State) : s.awayTest sx sy = s.withPressure (s.keptPressure sx sy) := by
  have hsame : ∀ {o : Option Pressure}, s.glide.pressure = o → s = s.withPressure o := fun h => by rw [← h]; rfl
  unfold State.awayTest State.keptPressure
  split
  · rename_i pr hpr
    rw [hpr]
    cases haway : awayFrom pr.edge sx sy with
    | true => simp only [Option.filter, haway, Bool.not_true, if_true, Bool.false_eq_true, if_false]; rfl
    | false => simp only [Option.filter, haway, Bool.not_false, if_true, Bool.false_eq_true, if_false]; exact hsame hpr
  · rename_i hnone
    rw [hnone]
    exact hsame hnone

section
variable {s : State} {p : Place} {sx sy : Int}

/-- The candidate of a step (R83). -/
def State.candidate (sx sy : Int) (s : State) : Int × Int := (s.glide.px + sx, s.glide.py + sy)

theorem State.settle_eq (hl : s.active.lookup s.pointer.1 s.pointer.2 = some p) :
    s.settle sx sy = (s.withPressure (s.keptPressure sx sy)).settleFrom p (s.candidate sx sy) := by
  unfold State.settle
  rw [State.awayTest_eq]
  simp only [show (s.withPressure (s.keptPressure sx sy)).active.lookup (s.withPressure (s.keptPressure sx sy)).pointer.1
    (s.withPressure (s.keptPressure sx sy)).pointer.2 = some p from hl]
  rfl

/-! ## Each way to settle (R84 to R87) -/

/-- The point a candidate that is accepted as it is gives the pointer. -/
def acceptedPoint (q : Int × Int) : Nat × Nat := (q.1.toNat, q.2.toNat)

/-- The lock holds the pointer: on a screen that is not the focus target's (R84). -/
def State.lockHolds (p : Place) (s : State) : Bool := s.focus.lock && s.active.displayOwner p.display != some s.focus.target

theorem State.settle_held (hl : s.active.lookup s.pointer.1 s.pointer.2 = some p) (hheld : s.followingHeld = true) :
    s.settle sx sy =
      (s.place ((s.holdingRect s.focus.target p).clampPoint (s.candidate sx sy)) (s.keptPressure sx sy), false) := by
  rw [State.settle_eq hl, State.settleFrom]
  exact if_pos hheld

theorem State.settle_locked (hl : s.active.lookup s.pointer.1 s.pointer.2 = some p) (hheld : s.followingHeld = false)
    (hlock : s.lockHolds p = true) : s.settle sx sy =
      if (s.candidatePlace (s.candidate sx sy)).isSome && s.holdsPoint s.focus.target ((s.candidate sx sy).1 / 16).toNat
        ((s.candidate sx sy).2 / 16).toNat then (s.place (acceptedPoint (s.candidate sx sy)) (s.keptPressure sx sy), false)
      else (s.place ((s.holdingRect s.focus.target p).clampPoint (s.candidate sx sy)) (s.keptPressure sx sy), false) := by
  rw [State.settle_eq hl, State.settleFrom]
  exact (if_neg (by rw [show (s.withPressure (s.keptPressure sx sy)).followingHeld = false from hheld]; decide)).trans (if_pos hlock)

/-- The lock lets the pointer go where the focus target holds the candidate (R84). -/
theorem State.settle_lockedAccepts (hl : s.active.lookup s.pointer.1 s.pointer.2 = some p) (hheld : s.followingHeld = false)
    (hlock : s.lockHolds p = true) (hc : s.candidatePlace (s.candidate sx sy) ≠ none)
    (hholds : s.holdsPoint s.focus.target ((s.candidate sx sy).1 / 16).toNat ((s.candidate sx sy).2 / 16).toNat = true) :
    s.settle sx sy = (s.place (acceptedPoint (s.candidate sx sy)) (s.keptPressure sx sy), false) := by
  rw [State.settle_locked hl hheld hlock, hholds, Bool.and_true, if_pos (Option.isSome_iff_ne_none.2 hc)]

/-- Otherwise it keeps the pointer in the holding rectangle (R84). -/
theorem State.settle_lockedClamps (hl : s.active.lookup s.pointer.1 s.pointer.2 = some p) (hheld : s.followingHeld = false)
    (hlock : s.lockHolds p = true) (hc : s.candidatePlace (s.candidate sx sy) = none ∨
      s.holdsPoint s.focus.target ((s.candidate sx sy).1 / 16).toNat ((s.candidate sx sy).2 / 16).toNat = false) :
    s.settle sx sy =
      (s.place ((s.holdingRect s.focus.target p).clampPoint (s.candidate sx sy)) (s.keptPressure sx sy), false) := by
  rw [State.settle_locked hl hheld hlock, if_neg]
  rw [Bool.and_eq_true]
  rintro ⟨hsome, hholds⟩
  rcases hc with hc | hc
  · rw [hc] at hsome
    cases hsome
  · rw [hc] at hholds
    cases hholds

/-- Neither a held following button nor the lock holds the pointer. -/
structure State.MovesFreely (p : Place) (s : State) : Prop where
  here : s.active.lookup s.pointer.1 s.pointer.2 = some p
  held : s.followingHeld = false
  lock : s.lockHolds p = false

/-- The free settling by the candidate's screen (R85, R86). -/
theorem State.settle_free (h : s.MovesFreely p) : s.settle sx sy =
    match s.candidatePlace (s.candidate sx sy) with
    | none => (s.place ((s.active.screen p).clampPoint (s.candidate sx sy)) (s.keptPressure sx sy), false)
    | some p' =>
      if p'.display = p.display then (s.place (acceptedPoint (s.candidate sx sy)) (s.keptPressure sx sy), false)
      else
        match s.active.displayOwner p'.display with
        | none => (s.place ((s.active.screen p).clampPoint (s.candidate sx sy)) (s.keptPressure sx sy), false)
        | some o =>
          if o = s.focus.target then (s.place (acceptedPoint (s.candidate sx sy)) none, false)
          else if s.crossingOpen o then
            let added := addPressure (s.keptPressure sx sy) p'.display
              ((s.active.screen p).overshoot ((s.candidate sx sy).1 / 16) ((s.candidate sx sy).2 / 16))
            if s.desk.resistance ≤ added.amount then (s.place (acceptedPoint (s.candidate sx sy)) none, true)
            else (s.place ((s.active.screen p).clampPoint (s.candidate sx sy)) (some added), false)
          else (s.place ((s.active.screen p).clampPoint (s.candidate sx sy)) none, false) := by
  have hheld : ¬(s.withPressure (s.keptPressure sx sy)).followingHeld = true := by
    rw [show (s.withPressure (s.keptPressure sx sy)).followingHeld = false from h.held]
    decide
  have hlock : ¬(s.withPressure (s.keptPressure sx sy)).lockHolds p = true := by
    rw [show (s.withPressure (s.keptPressure sx sy)).lockHolds p = false from h.lock]
    decide
  rw [State.settle_eq h.here, State.settleFrom]
  exact (if_neg hheld).trans (if_neg hlock)

theorem State.settle_noScreen (h : s.MovesFreely p) (hc : s.candidatePlace (s.candidate sx sy) = none) :
    s.settle sx sy = (s.place ((s.active.screen p).clampPoint (s.candidate sx sy)) (s.keptPressure sx sy), false) := by
  rw [State.settle_free h, hc]

theorem State.settle_sameScreen (h : s.MovesFreely p) {p' : Place} (hc : s.candidatePlace (s.candidate sx sy) = some p')
    (hp : p'.display = p.display) :
    s.settle sx sy = (s.place (acceptedPoint (s.candidate sx sy)) (s.keptPressure sx sy), false) := by
  rw [State.settle_free h, hc]
  exact if_pos hp

theorem State.settle_ownScreen (h : s.MovesFreely p) {p' : Place} (hc : s.candidatePlace (s.candidate sx sy) = some p')
    (hp : p'.display ≠ p.display) (ho : s.active.displayOwner p'.display = some s.focus.target) :
    s.settle sx sy = (s.place (acceptedPoint (s.candidate sx sy)) none, false) := by
  rw [State.settle_free h, hc]
  refine (if_neg hp).trans ?_
  rw [ho]
  exact if_pos rfl

/-- Toward another target's screen: refused, clamped with the pressure added, or across (R86, R87). -/
theorem State.settle_otherScreen (h : s.MovesFreely p) {p' : Place} {o : Target} (hc : s.candidatePlace (s.candidate sx sy) = some p')
    (hp : p'.display ≠ p.display) (ho : s.active.displayOwner p'.display = some o) (hof : o ≠ s.focus.target) :
    let added := addPressure (s.keptPressure sx sy) p'.display
      ((s.active.screen p).overshoot ((s.candidate sx sy).1 / 16) ((s.candidate sx sy).2 / 16))
    s.settle sx sy =
      if s.crossingOpen o then
        if s.desk.resistance ≤ added.amount then (s.place (acceptedPoint (s.candidate sx sy)) none, true)
        else (s.place ((s.active.screen p).clampPoint (s.candidate sx sy)) (some added), false)
      else (s.place ((s.active.screen p).clampPoint (s.candidate sx sy)) none, false) := by
  rw [State.settle_free h, hc]
  refine (if_neg hp).trans ?_
  rw [ho]
  exact if_neg hof

end

/-! ## The accumulator after an attempt (R87) -/

/-- It stands toward the display attempted, at the edge of this overshoot. -/
theorem addPressure_eq (old : Option Pressure) (d : Display) (o : Nat × Edge) :
    addPressure old d o = ⟨d, (addPressure old d o).amount, o.2⟩ := by
  unfold addPressure
  cases old with
  | none => rfl
  | some pr => dsimp only; split <;> rfl

theorem addPressure_amount (old : Option Pressure) (d : Display) (o : Nat × Edge) : (addPressure old d o).amount =
    match old with
    | some pr => if pr.display = d then min 65535 (pr.amount + o.1) else o.1
    | none => o.1 := by
  cases old with
  | none => rfl
  | some pr =>
    unfold addPressure
    dsimp only
    split <;> rfl

/-- The step toward a screen of another target o (R86). -/
structure State.Attempts (p p' : Place) (o : Target) (sx sy : Int) (s : State) : Prop where
  free  : s.MovesFreely p
  place : s.candidatePlace (s.candidate sx sy) = some p'
  other : p'.display ≠ p.display
  owner : s.active.displayOwner p'.display = some o
  away  : o ≠ s.focus.target

section
variable {s : State} {p p' : Place} {o : Target} {sx sy : Int}

/-- The overshoot of the candidate beyond the screen p. -/
def State.candidateOvershoot (p : Place) (sx sy : Int) (s : State) : Nat × Edge :=
  (s.active.screen p).overshoot ((s.candidate sx sy).1 / 16) ((s.candidate sx sy).2 / 16)

/-- The accumulator's amount after the attempt. -/
def State.attemptAmount (p p' : Place) (sx sy : Int) (s : State) : Nat :=
  (addPressure (s.keptPressure sx sy) p'.display (s.candidateOvershoot p sx sy)).amount

theorem State.settle_refused (h : s.Attempts p p' o sx sy) (hclosed : s.crossingOpen o = false) :
    s.settle sx sy = (s.place ((s.active.screen p).clampPoint (s.candidate sx sy)) none, false) := by
  rw [State.settle_otherScreen h.free h.place h.other h.owner h.away, hclosed]
  rfl

theorem State.settle_resisted (h : s.Attempts p p' o sx sy) (hopen : s.crossingOpen o = true)
    (hless : s.attemptAmount p p' sx sy < s.desk.resistance) : s.settle sx sy = (s.place ((s.active.screen p).clampPoint (s.candidate sx sy))
      (some ⟨p'.display, s.attemptAmount p p' sx sy, (s.candidateOvershoot p sx sy).2⟩), false) := by
  rw [State.settle_otherScreen h.free h.place h.other h.owner h.away, if_pos hopen]
  refine (if_neg (Nat.not_le.2 hless)).trans ?_
  rw [addPressure_eq]
  rfl

theorem State.settle_crosses (h : s.Attempts p p' o sx sy) (hopen : s.crossingOpen o = true)
    (hmore : s.desk.resistance ≤ s.attemptAmount p p' sx sy) :
    s.settle sx sy = (s.place (acceptedPoint (s.candidate sx sy)) none, true) := by
  rw [State.settle_otherScreen h.free h.place h.other h.owner h.away, if_pos hopen]
  exact if_pos hmore

end

/-! ## The conditions (R84, R86, R87) -/

theorem State.crossingOpen_iff {o : Target} {s : State} : s.crossingOpen o = true ↔ s.desk.glideEnable = true ∧ s.holdOwner = none ∧
    s.focus.lock = false ∧ s.policies[o].glideIn = true ∧ s.targets[o].power ≠ .absent := by
  simp only [State.crossingOpen, State.isAbsent, Bool.and_eq_true, Bool.not_eq_true', Option.isNone_iff_eq_none, decide_eq_false_iff_not,
    and_assoc, ne_eq]

theorem State.holdingRect_own {f : Target} {p : Place} {s : State} (h : s.active.displayOwner p.display = some f) :
    s.holdingRect f p = s.active.screen p := if_pos h

theorem topWindow_eq_some {c : Window → Bool} {w : Window} (hw : c w = true) (habove : ∀ v : Window, w < v → c v = false) :
    topWindow c = some w := by
  have hlt := w.isLt
  rw [topWindow, List.find?_eq_some_iff_getElem]
  refine ⟨hw, 7 - w.val, by simp; omega, ?_, fun j hj => ?_⟩
  · rw [List.getElem_reverse, List.getElem_finRange]
    exact Fin.ext (by simp; omega)
  · rw [List.getElem_reverse, List.getElem_finRange, habove _ (Fin.lt_def.2 (by simp; omega))]
    rfl

/-- The holding rectangle off the focus target's screens is its topmost window at the pointer (R84). -/
theorem State.holdingRect_window {f : Target} {p : Place} {w : Window} {s : State} (hown : s.active.displayOwner p.display ≠ some f)
    (hw : s.windowOfAt f s.pointer.1 s.pointer.2 w = true) (habove : ∀ v : Window, w < v → s.windowOfAt f s.pointer.1 s.pointer.2 v = false) :
    s.windowOnDesk w = some (s.holdingRect f p) := by
  have hat : s.windowAt s.pointer.1 s.pointer.2 w = true := (Bool.and_eq_true_iff.1 hw).2
  cases hdesk : s.windowOnDesk w with
  | none =>
    rw [State.windowAt, hdesk] at hat
    simp at hat
  | some r =>
    rw [State.holdingRect, if_neg hown, topWindow_eq_some hw habove]
    simp only [Option.bind_some, hdesk]

end Sys2Proof.Machine
end

section
/-! SUPPORT. The buttons of a pointer event, one by one: which port, which tables and which items they touch (R46, R47, R91). -/

namespace Sys2Proof.Machine

/-! ## Button items of one port -/

/-- From s to t nothing differs of the console ports but the suppressed buttons of port p, and nothing of the tables but p's buttons; a
button that I does not name is as it was. -/
structure State.TouchesButtons (p : Port) (I : Button → Prop) (s t : State) : Prop where
  otherPorts : ∀ q : Port, q ≠ p → t.ports[q] = s.ports[q]
  port       : t.ports[p] = { s.ports[p] with supButtons := t.ports[p].supButtons }
  table      : ∀ v : Target, t.keyStates[v] = { s.keyStates[v] with buttons := t.keyStates[v].buttons }
  others     : ∀ (v : Target) (q : Port) (i : Item), q ≠ p → t.keyStates[v].holds q i = s.keyStates[v].holds q i
  suppressed : ∀ b : Button, ¬I b → t.ports[p].suppressed (.button b) = s.ports[p].suppressed (.button b)
  holds      : ∀ b : Button, ¬I b → ∀ v : Target, t.keyStates[v].holds p (.button b) = s.keyStates[v].holds p (.button b)

section
variable {p : Port} {I J : Button → Prop} {s t u : State}

theorem State.TouchesButtons.of_ports_keyStates (hp : t.ports = s.ports) (hk : t.keyStates = s.keyStates) : s.TouchesButtons p I t := by
  refine ⟨fun _ _ => ?_, ?_, fun _ => ?_, fun _ _ _ _ => ?_, fun _ _ => ?_, fun _ _ _ => ?_⟩
  all_goals simp only [hp, hk]

theorem State.TouchesButtons.mono (h : s.TouchesButtons p I t) (hIJ : ∀ b, I b → J b) : s.TouchesButtons p J t :=
  ⟨h.otherPorts, h.port, h.table, h.others, fun b hb => h.suppressed b fun hi => hb (hIJ b hi), fun b hb => h.holds b fun hi => hb (hIJ b hi)⟩

theorem State.TouchesButtons.trans (h : s.TouchesButtons p I t) (k : t.TouchesButtons p I u) : s.TouchesButtons p I u where
  otherPorts := fun q hq => (k.otherPorts q hq).trans (h.otherPorts q hq)
  port := by rw [k.port, h.port]
  table := fun v => by rw [k.table v, h.table v]
  others := fun v q i hq => (k.others v q i hq).trans (h.others v q i hq)
  suppressed := fun b hb => (k.suppressed b hb).trans (h.suppressed b hb)
  holds := fun b hb v => (k.holds b hb v).trans (h.holds b hb v)

theorem State.TouchesButtons.holder (h : s.TouchesButtons p I t) {b : Button} (hb : ¬I b) : t.holder p (.button b) = s.holder p (.button b) := by
  simp only [State.holder, h.holds b hb]

theorem ConsolePort.suppress_button (b : Button) (c : ConsolePort) :
    c.suppress (.button b) = { c with supButtons := (c.suppress (.button b)).supButtons } := by
  have hmods : c.supMods ||| 0 = c.supMods := BitVec.or_zero
  simp only [ConsolePort.suppress, ConsolePort.suppressAll, hmods]
  rfl

theorem ConsolePort.unsuppress_button (b : Button) (c : ConsolePort) :
    c.unsuppress (.button b) = { c with supButtons := (c.unsuppress (.button b)).supButtons } := rfl

/-- One button of p suppressed or no longer. -/
theorem State.modPort_touches {b : Button} {f : ConsolePort → ConsolePort} (hf : ∀ c, f c = { c with supButtons := (f c).supButtons })
    (hsup : ∀ c j, j ≠ b → (f c).suppressed (.button j) = c.suppressed (.button j)) (s : State) :
    s.TouchesButtons p (· = b) (s.modPort p f) := by
  have hport : (s.modPort p f).ports[p] = f s.ports[p] := upd_get ..
  refine ⟨fun q hq => upd_get_ne _ _ _ _ hq, ?_, fun _ => rfl, fun _ _ _ _ => rfl, fun j hj => ?_, fun _ _ _ => rfl⟩
  · rw [hport]
    exact hf _
  · rw [hport]
    exact hsup _ j hj

theorem State.suppressButton_touches (b : Button) (s : State) : s.TouchesButtons p (· = b) (s.modPort p (ConsolePort.suppress (.button b))) :=
  State.modPort_touches (ConsolePort.suppress_button b) (fun c j hj => by simp [ConsolePort.suppress_suppressed, hj]) s

theorem State.unsuppressButton_touches (b : Button) (s : State) :
    s.TouchesButtons p (· = b) (s.modPort p (ConsolePort.unsuppress (.button b))) :=
  State.modPort_touches (ConsolePort.unsuppress_button b) (fun c j hj => by simp [ConsolePort.unsuppress_suppressed, hj]) s

/-- One button of p held at v or no longer. -/
theorem State.modKeys_touches {b : Button} {v : Target} {f : KeyState → KeyState} {s : State}
    (hf : f s.keyStates[v] = { s.keyStates[v] with buttons := (f s.keyStates[v]).buttons })
    (hholds : ∀ (q : Port) (i : Item), ¬(q = p ∧ i = .button b) → (f s.keyStates[v]).holds q i = s.keyStates[v].holds q i) :
    s.TouchesButtons p (· = b) (s.modKeys v f) := by
  have hkeys : ∀ w : Target, (s.modKeys v f).keyStates[w] = if w = v then f s.keyStates[w] else s.keyStates[w] := fun w => upd_get_eq ..
  have hitem : ∀ (w : Target) (q : Port) (i : Item), ¬(q = p ∧ i = .button b) →
      (s.modKeys v f).keyStates[w].holds q i = s.keyStates[w].holds q i := fun w q i h => by
    rw [hkeys]
    split
    · rename_i hw
      subst hw
      exact hholds q i h
    · rfl
  refine ⟨fun _ _ => rfl, rfl, fun w => ?_, fun w q i hq => hitem w q i fun h => hq h.1, fun _ _ => rfl,
    fun j hj w => hitem w p _ fun h => hj (Item.button.inj h.2)⟩
  rw [hkeys]
  split
  · rename_i hw
    subst hw
    exact hf
  · rfl

/-! ## One release, one press -/

theorem State.buttonRelease_touches (b : Button) (s : State) : s.TouchesButtons p (· = b) (s.buttonRelease p b) := by
  rw [State.buttonRelease_eq]
  cases hsup : s.ports[p].suppressed (.button b) with
  | true => rw [State.releaseItem_suppressed hsup]; exact s.unsuppressButton_touches b
  | false =>
    cases hv : s.holder p (.button b) with
    | none => rw [State.releaseItem_nowhere hsup hv]; exact .of_ports_keyStates rfl rfl
    | some v =>
      rw [State.releaseItem_held hsup hv]
      exact State.modKeys_touches rfl fun q i h => by simp [KeyState.release_holds, h]

theorem KeyState.press_button (p : Port) (b : Button) (ks : KeyState) :
    ks.press p (.button b) = some { ks with buttons := upd ks.buttons b fun f => adjoin f p } := rfl

/-- A taken button press is booked, whatever the table holds (R47). -/
theorem State.bookButton_taken {v : Target} {b : Button} (h : s.TakesPress v) : s.bookPress p v (.button b) =
    (s.wokenByPress v).modKeys v fun ks => { ks with buttons := upd ks.buttons b fun f => adjoin f p } := by
  rw [State.bookPress_booked h (KeyState.press_button p b _), ← (s.wokenByPress_delivers v).keyStates]
  rfl

theorem State.bookButton_refused {v : Target} {b : Button} (h : ¬s.TakesPress v) : s.bookPress p v (.button b) =
    (s.wokenByPress v).modPort p (ConsolePort.suppress (.button b)) := State.bookPress_refused fun ht => absurd ht h

theorem State.wokenByPress_touches (v : Target) (s : State) : s.TouchesButtons p I (s.wokenByPress v) :=
  .of_ports_keyStates (s.wokenByPress_delivers v).ports (s.wokenByPress_delivers v).keyStates

theorem State.buttonPress_touches (dest : Option Target) (b : Button) (s : State) : s.TouchesButtons p (· = b) (s.buttonPress p dest b) := by
  cases dest with
  | none => exact s.suppressButton_touches b
  | some v =>
    by_cases h : s.TakesPress v
    · show s.TouchesButtons p (· = b) (s.bookPress p v (.button b))
      rw [State.bookButton_taken h]
      refine (s.wokenByPress_touches v).trans (State.modKeys_touches rfl fun q i hi => ?_)
      rw [KeyState.press_holds p q (.button b) i _ _ (KeyState.press_button p b _)]
      simp [hi]
    · show s.TouchesButtons p (· = b) (s.bookPress p v (.button b))
      rw [State.bookButton_refused h]
      exact (s.wokenByPress_touches v).trans (State.suppressButton_touches b _)

/-! ## Several buttons -/

theorem foldl_touches {f : State → Button → State} (h : ∀ (x : State) (b : Button), x.TouchesButtons p (· = b) (f x b)) (l : List Button)
    (s : State) : s.TouchesButtons p (· ∈ l) (l.foldl f s) := by
  induction l generalizing s with
  | nil => exact .of_ports_keyStates rfl rfl
  | cons b l ih =>
    exact ((h s b).mono fun j hj => by rw [hj]; exact List.mem_cons_self).trans ((ih _).mono fun j hj => List.mem_cons_of_mem b hj)

/-- Of several different buttons, what one does is done between the others, which leave it alone. -/
theorem foldl_touches_at {f : State → Button → State} (h : ∀ (x : State) (b : Button), x.TouchesButtons p (· = b) (f x b)) {l : List Button}
    (hnodup : l.Nodup) {b : Button} (hb : b ∈ l) (s : State) : ∃ before : List Button, s.TouchesButtons p (· ≠ b) (before.foldl f s) ∧
      (f (before.foldl f s) b).TouchesButtons p (· ≠ b) (l.foldl f s) := by
  obtain ⟨before, after, rfl⟩ := List.append_of_mem hb
  obtain ⟨-, hafter, hdisjoint⟩ := List.nodup_append.1 hnodup
  refine ⟨before, (foldl_touches h before s).mono fun j hj hjb => hdisjoint j hj b List.mem_cons_self hjb, ?_⟩
  rw [List.foldl_append, List.foldl_cons]
  exact (foldl_touches h after _).mono fun j hj hjb => (List.nodup_cons.1 hafter).1 (hjb ▸ hj)

end

/-! ## Where a press finds its target (R45, R150) -/

/-- A wake a press starts changes no press's being taken. -/
theorem State.wokenByPress_takes (u v : Target) (s : State) : (s.wokenByPress v).TakesPress u ↔ s.TakesPress u := by
  by_cases h : s.WakesOnPress v
  · have hpolicies : (s.wakeRequest v).policies = s.policies := (congrArg State.policies (s.wakeRequest_delivers v) :)
    rw [State.wokenByPress, if_pos h, State.TakesPress, State.TakesPress, State.WakesOnPress, State.WakesOnPress, hpolicies,
      State.wakeRequest_targets h.1, upd_get_eq]
    split
    · rename_i hu
      subst hu
      exact iff_of_true (.inr (.inl rfl)) (.inr (.inr h))
    · rfl
  · rw [State.wokenByPress, if_neg h]

theorem State.buttonPress_takes (p : Port) (dest : Option Target) (b : Button) (u : Target) (s : State) :
    (s.buttonPress p dest b).TakesPress u ↔ s.TakesPress u := by
  cases dest with
  | none => exact Iff.rfl
  | some v =>
    have hbook : (s.bookPress p v (.button b)).TakesPress u ↔ (s.wokenByPress v).TakesPress u := by
      rw [State.bookPress_eq]
    exact hbook.trans (s.wokenByPress_takes u v)

end Sys2Proof.Machine
end

section
/-! SUPPORT. The accounting of a pointer event's buttons (R47, R91), as a whole. -/

namespace Sys2Proof.Machine

section
variable {e : PointerEvent} {dest : Option Target} {s : State}

/-- s with the held set the event gives and its releases taken. -/
def State.buttonsReleased (e : PointerEvent) (s : State) : State :=
  (members e.releases).foldl (fun acc b => acc.buttonRelease e.port b) (s.setHeld e.port e.buttons)

/-- The presses of an event, in their order. -/
def State.pressAll (p : Port) (dest : Option Target) (l : List Button) (s : State) : State :=
  l.foldl (fun acc b => acc.buttonPress p dest b) s

theorem State.accountButtons_eq (e : PointerEvent) (dest : Option Target) (s : State) :
    s.accountButtons e dest = (s.buttonsReleased e).pressAll e.port dest (members e.presses) := rfl

/-! ## What the event touches -/

theorem State.setHeld_self (p : Port) (b : ButtonSet) (s : State) : (s.setHeld p b).ports[p] = { s.ports[p] with held := b } := upd_get ..

theorem State.setHeld_suppressed (p q : Port) (b : ButtonSet) (i : Item) (s : State) :
    (s.setHeld p b).ports[q].suppressed i = s.ports[q].suppressed i := by
  rw [State.setHeld_port]
  split
  · exact congrFun (ConsolePort.suppressed_congr rfl) i
  · rfl

theorem State.buttonsReleased_touches (e : PointerEvent) (s : State) :
    (s.setHeld e.port e.buttons).TouchesButtons e.port (has e.releases · = true) (s.buttonsReleased e) :=
  (foldl_touches (fun x b => x.buttonRelease_touches b) _ _).mono fun _ hb => (mem_members ..).1 hb

theorem State.pressAll_touches (p : Port) (dest : Option Target) (l : List Button) (s : State) :
    s.TouchesButtons p (· ∈ l) (s.pressAll p dest l) := foldl_touches (fun x b => x.buttonPress_touches dest b) l s

theorem State.accountButtons_touches (e : PointerEvent) (dest : Option Target) (s : State) : (s.setHeld e.port e.buttons).TouchesButtons e.port
    (fun b => has e.releases b = true ∨ has e.presses b = true) (s.accountButtons e dest) :=
  ((s.buttonsReleased_touches e).mono fun _ => .inl).trans
    ((State.pressAll_touches ..).mono fun _ hb => .inr ((mem_members ..).1 hb))

/-! ## What the event wakes -/

/-- The wake that presses routed to a destination start. -/
def State.wokenFor (dest : Option Target) (s : State) : State :=
  match dest with
  | some v => s.wokenByPress v
  | none => s

/-- From s to t nothing differs but console ports and tables. -/
def State.BooksOnly (s t : State) : Prop := t = { s with ports := t.ports, keyStates := t.keyStates }

theorem State.BooksOnly.trans {s t u : State} (h : s.BooksOnly t) (k : t.BooksOnly u) : s.BooksOnly u := by
  unfold State.BooksOnly at h k ⊢
  rw [k, h]

theorem State.wakeRequest_booksOnly {s t : State} (v : Target) (h : s.BooksOnly t) : (s.wakeRequest v).BooksOnly (t.wakeRequest v) := by
  rw [h]
  unfold State.BooksOnly State.wakeRequest State.sendTo
  dsimp only
  split
  · split <;> rfl
  all_goals rfl

theorem State.wokenFor_booksOnly {s t : State} (dest : Option Target) (h : s.BooksOnly t) : (s.wokenFor dest).BooksOnly (t.wokenFor dest) := by
  cases dest with
  | none => exact h
  | some v =>
    have hwakes : t.WakesOnPress v ↔ s.WakesOnPress v := by rw [h]
    unfold State.wokenFor State.wokenByPress
    dsimp only
    by_cases hw : s.WakesOnPress v
    · rw [if_pos hw, if_pos (hwakes.2 hw)]
      exact State.wakeRequest_booksOnly v h
    · rw [if_neg hw, if_neg (mt hwakes.1 hw)]
      exact h

/-- A target woken is not woken again. -/
theorem State.wokenFor_again (dest : Option Target) (s : State) : (s.wokenFor dest).wokenFor dest = s.wokenFor dest := by
  cases dest with
  | none => rfl
  | some v =>
    refine if_neg ?_
    unfold State.wokenFor State.wokenByPress
    dsimp only
    split
    · rename_i hw
      rw [State.WakesOnPress, State.wakeRequest_suspended hw.1]
      exact fun h => nomatch h.1
    · assumption

theorem State.buttonPress_booksOnly (p : Port) (dest : Option Target) (b : Button) (s : State) :
    (s.wokenFor dest).BooksOnly (s.buttonPress p dest b) := by
  cases dest with
  | none => rfl
  | some v => exact s.bookPress_eq p v (.button b)

theorem State.pressAll_booksOnly (p : Port) (dest : Option Target) (l : List Button) (s : State) :
    (if l = [] then s else s.wokenFor dest).BooksOnly (s.pressAll p dest l) := by
  have hmore : ∀ (l : List Button) (x : State), (s.wokenFor dest).BooksOnly x → (s.wokenFor dest).BooksOnly (x.pressAll p dest l) := by
    intro l
    induction l with
    | nil => exact fun x hx => hx
    | cons b l ih =>
      intro x hx
      have hwoken := State.wokenFor_booksOnly dest hx
      rw [State.wokenFor_again] at hwoken
      exact ih _ (hwoken.trans (x.buttonPress_booksOnly p dest b))
  cases l with
  | nil => exact rfl
  | cons b l => exact hmore l _ (s.buttonPress_booksOnly p dest b)

theorem State.buttonsReleased_booksOnly (e : PointerEvent) (s : State) : s.BooksOnly (s.buttonsReleased e) := by
  have hrelease : ∀ (b : Button) (x : State), x.BooksOnly (x.buttonRelease e.port b) := fun b x => by
    unfold State.buttonRelease
    split
    · rfl
    · split <;> rfl
  have hall : ∀ (l : List Button) (x : State), s.BooksOnly x → s.BooksOnly (l.foldl (fun acc b => acc.buttonRelease e.port b) x) := by
    intro l
    induction l with
    | nil => exact fun x hx => hx
    | cons b l ih => exact fun x hx => ih _ (hx.trans (hrelease b x))
  exact hall _ _ rfl

theorem members_eq_nil {n : Nat} {x : BitVec n} : members x = [] ↔ x = 0#n := by
  rw [List.eq_nil_iff_forall_not_mem]
  simp only [mem_members]
  exact ⟨fun h => set_ext fun i => by rw [has_zero]; simpa using h i, fun h i => by rw [h, has_zero]; decide⟩

/-- Beyond console ports and tables the event starts the wake of its presses' destination, where it has presses, and nothing else. -/
theorem State.accountButtons_booksOnly (e : PointerEvent) (dest : Option Target) (s : State) :
    (if e.presses = 0 then s else s.wokenFor dest).BooksOnly (s.accountButtons e dest) := by
  rw [State.accountButtons_eq]
  have hpresses := (s.buttonsReleased e).pressAll_booksOnly e.port dest (members e.presses)
  by_cases h : e.presses = 0
  · rw [if_pos (members_eq_nil.2 h)] at hpresses
    rw [if_pos h]
    exact (s.buttonsReleased_booksOnly e).trans hpresses
  · rw [if_neg (mt members_eq_nil.1 h)] at hpresses
    rw [if_neg h]
    exact (State.wokenFor_booksOnly dest (s.buttonsReleased_booksOnly e)).trans hpresses

/-! ## What becomes of a released button (R46) -/

/-- What becomes of one released button. -/
structure State.ReleasesButton (p : Port) (b : Button) (s t : State) : Prop where
  unsuppressed : t.ports[p].suppressed (.button b) = false
  absorbed : s.ports[p].suppressed (.button b) = true → ∀ v : Target, t.keyStates[v].holds p (.button b) = s.keyStates[v].holds p (.button b)
  nowhere : s.ports[p].suppressed (.button b) = false → s.holder p (.button b) = none →
    ∀ v : Target, t.keyStates[v].holds p (.button b) = s.keyStates[v].holds p (.button b)
  taken : ∀ u : Target, s.ports[p].suppressed (.button b) = false → s.holder p (.button b) = some u →
    t.keyStates[u].holds p (.button b) = false ∧
    ∀ v : Target, v ≠ u → t.keyStates[v].holds p (.button b) = s.keyStates[v].holds p (.button b)

theorem State.buttonRelease_releases (p : Port) (b : Button) (s : State) : s.ReleasesButton p b (s.buttonRelease p b) := by
  rw [State.buttonRelease_eq]
  cases hsup : s.ports[p].suppressed (.button b) with
  | true =>
    rw [State.releaseItem_suppressed hsup]
    have hport : (s.modPort p (ConsolePort.unsuppress (.button b))).ports[p] = s.ports[p].unsuppress (.button b) := upd_get ..
    refine ⟨?_, fun _ _ => rfl, fun h => ?_, fun _ h => ?_⟩
    · rw [hport, ConsolePort.unsuppress_suppressed]
      simp
    all_goals rw [hsup] at h; cases h
  | false =>
    cases hv : s.holder p (.button b) with
    | none =>
      rw [State.releaseItem_nowhere hsup hv]
      exact ⟨hsup, fun _ _ => rfl, fun _ _ _ => rfl, fun u _ hu => by rw [hv] at hu; cases hu⟩
    | some u =>
      rw [State.releaseItem_held hsup hv]
      refine ⟨hsup, fun h => ?_, fun _ h => ?_, fun w _ hw => ?_⟩
      · rw [hsup] at h
        cases h
      · rw [hv] at h
        cases h
      · obtain rfl := Option.some.inj (hv.symm.trans hw)
        refine ⟨?_, fun v hne => ?_⟩
        · rw [State.modKeys_keyStates, upd_get, KeyState.release_holds]
          simp
        · rw [State.modKeys_keyStates, upd_get_ne _ _ _ _ hne]

/-- It is the same when other buttons come before and after. -/
theorem State.ReleasesButton.between {p : Port} {b : Button} {s x y t : State} (h : x.ReleasesButton p b y)
    (hbefore : s.TouchesButtons p (· ≠ b) x) (hafter : y.TouchesButtons p (· ≠ b) t) : s.ReleasesButton p b t := by
  have hsup := hbefore.suppressed b (not_not.2 rfl)
  have hholds := hbefore.holds b (not_not.2 rfl)
  have hholder := hbefore.holder (b := b) (not_not.2 rfl)
  have hsup' := hafter.suppressed b (not_not.2 rfl)
  have hholds' := hafter.holds b (not_not.2 rfl)
  obtain ⟨hun, habs, hno, htaken⟩ := h
  simp only [hsup, hholder] at habs hno htaken
  refine ⟨hsup'.trans hun, fun h v => ?_, fun h hn v => ?_, fun u h hu => ⟨?_, fun v hv => ?_⟩⟩
  · rw [hholds', habs h, hholds]
  · rw [hholds', hno h hn, hholds]
  · rw [hholds', (htaken u h hu).1]
  · rw [hholds', (htaken u h hu).2 v hv, hholds]

/-! ## What becomes of a pressed button (R47, R91) -/

/-- What becomes of one pressed button. -/
structure State.PressesButton (p : Port) (dest : Option Target) (b : Button) (s t : State) : Prop where
  swallowed : dest = none → t.ports[p].suppressed (.button b) = true ∧
    ∀ v : Target, t.keyStates[v].holds p (.button b) = s.keyStates[v].holds p (.button b)
  taken : ∀ u : Target, dest = some u → s.TakesPress u →
    t.ports[p].suppressed (.button b) = s.ports[p].suppressed (.button b) ∧ t.keyStates[u].holds p (.button b) = true ∧
    ∀ v : Target, v ≠ u → t.keyStates[v].holds p (.button b) = s.keyStates[v].holds p (.button b)
  refused : ∀ u : Target, dest = some u → ¬s.TakesPress u → t.ports[p].suppressed (.button b) = true ∧
    ∀ v : Target, t.keyStates[v].holds p (.button b) = s.keyStates[v].holds p (.button b)

theorem State.suppressButton_suppressed (p : Port) (b : Button) (s : State) :
    (s.modPort p (ConsolePort.suppress (.button b))).ports[p].suppressed (.button b) = true := by
  have hport : (s.modPort p (ConsolePort.suppress (.button b))).ports[p] = s.ports[p].suppress (.button b) := upd_get ..
  rw [hport, ConsolePort.suppress_suppressed]
  simp

theorem State.buttonPress_presses (p : Port) (dest : Option Target) (b : Button) (s : State) :
    s.PressesButton p dest b (s.buttonPress p dest b) := by
  cases dest with
  | none => exact ⟨fun _ => ⟨s.suppressButton_suppressed p b, fun _ => rfl⟩, nofun, nofun⟩
  | some u =>
    have hwoken := s.wokenByPress_delivers u
    refine ⟨nofun, fun w hw htakes => ?_, fun w hw hnot => ?_⟩
    all_goals obtain rfl := Option.some.inj hw
    · show (s.bookPress p u (.button b)).ports[p].suppressed _ = _ ∧ (s.bookPress p u (.button b)).keyStates[u].holds p _ = true ∧
        ∀ v : Target, v ≠ u → (s.bookPress p u (.button b)).keyStates[v].holds p _ = _
      rw [State.bookButton_taken htakes]
      refine ⟨?_, ?_, fun v hv => ?_⟩
      · rw [State.modKeys_ports, hwoken.ports]
      · rw [State.modKeys_keyStates, upd_get, KeyState.press_holds p p (.button b) (.button b) _ _ (KeyState.press_button p b _)]
        simp
      · rw [State.modKeys_keyStates, upd_get_ne _ _ _ _ hv, hwoken.keyStates]
    · show (s.bookPress p u (.button b)).ports[p].suppressed _ = true ∧
        ∀ v : Target, (s.bookPress p u (.button b)).keyStates[v].holds p _ = _
      rw [State.bookButton_refused hnot]
      refine ⟨State.suppressButton_suppressed .., fun v => ?_⟩
      rw [State.modPort_keyStates, hwoken.keyStates]

theorem State.PressesButton.between {p : Port} {dest : Option Target} {b : Button} {s x y t : State} (h : x.PressesButton p dest b y)
    (htakes : ∀ u : Target, x.TakesPress u ↔ s.TakesPress u) (hbefore : s.TouchesButtons p (· ≠ b) x)
    (hafter : y.TouchesButtons p (· ≠ b) t) : s.PressesButton p dest b t := by
  have hsup := hbefore.suppressed b (not_not.2 rfl)
  have hholds := hbefore.holds b (not_not.2 rfl)
  have hsup' := hafter.suppressed b (not_not.2 rfl)
  have hholds' := hafter.holds b (not_not.2 rfl)
  obtain ⟨hswallowed, htaken, hrefused⟩ := h
  simp only [htakes, hsup, hholds, ← hsup', ← hholds'] at hswallowed htaken hrefused
  exact ⟨hswallowed, htaken, hrefused⟩

theorem State.pressAll_takes (p : Port) (dest : Option Target) (l : List Button) (u : Target) (s : State) :
    (s.pressAll p dest l).TakesPress u ↔ s.TakesPress u := by
  induction l generalizing s with
  | nil => exact Iff.rfl
  | cons b l ih => exact (ih _).trans (s.buttonPress_takes p dest b u)

theorem State.pressAll_presses {p : Port} {b : Button} {l : List Button} (hnodup : l.Nodup) (hb : b ∈ l) (dest : Option Target) (s : State) :
    s.PressesButton p dest b (s.pressAll p dest l) := by
  obtain ⟨before, hbefore, hafter⟩ := foldl_touches_at (p := p) (fun x b => x.buttonPress_touches dest b) hnodup hb s
  exact (State.buttonPress_presses p dest b _).between (fun u => s.pressAll_takes p dest before u) hbefore hafter

theorem State.buttonsReleased_releases {b : Button} (hb : has e.releases b = true) (s : State) :
    (s.setHeld e.port e.buttons).ReleasesButton e.port b (s.buttonsReleased e) := by
  obtain ⟨before, hbefore, hafter⟩ := foldl_touches_at (p := e.port) (fun x b => x.buttonRelease_touches b) (members_nodup e.releases)
    ((mem_members ..).2 hb) (s.setHeld e.port e.buttons)
  exact (State.buttonRelease_releases e.port b _).between hbefore hafter

/-! ## The event as a whole -/

theorem State.buttonsReleased_takes (u : Target) : (s.buttonsReleased e).TakesPress u ↔ s.TakesPress u := by
  rw [s.buttonsReleased_booksOnly e]

/-- A pressed button of an event, whether it releases it too or not. -/
theorem State.accountButtons_presses {b : Button} (hb : has e.presses b = true) (dest : Option Target) (s : State) :
    (s.buttonsReleased e).PressesButton e.port dest b (s.accountButtons e dest) :=
  State.pressAll_presses (members_nodup _) ((mem_members ..).2 hb) dest _

/-- A button that the event presses and does not release. -/
theorem State.accountButtons_pressesOnly {b : Button} (hrelease : has e.releases b = false) (hb : has e.presses b = true)
    (dest : Option Target) (s : State) : (s.setHeld e.port e.buttons).PressesButton e.port dest b (s.accountButtons e dest) := by
  refine (State.accountButtons_presses hb dest s).between (fun u => State.buttonsReleased_takes u) ((s.buttonsReleased_touches e).mono
    fun j hj hjb => ?_) (.of_ports_keyStates rfl rfl)
  rw [hjb, hrelease] at hj
  cases hj

theorem State.accountButtons_releases {b : Button} (hb : has e.releases b = true) (hpress : has e.presses b = false) (dest : Option Target)
    (s : State) : (s.setHeld e.port e.buttons).ReleasesButton e.port b (s.accountButtons e dest) := by
  refine (State.buttonsReleased_releases hb s).between (.of_ports_keyStates rfl rfl) ((State.pressAll_touches ..).mono fun j hj hjb => ?_)
  rw [hjb, mem_members, hpress] at hj
  cases hj

end

end Sys2Proof.Machine
end

section
/-! SUPPORT. The button reports of other targets, stage 3 and swallowed presses (R43, R89 to R91). -/

namespace Sys2Proof.Machine

/-! ## One button report (R43) -/


/-- A button report of v that finds no room raises DELIVERY_OVERFLOW (R113). -/
def State.reportOverflows (v : Target) (s : State) : Bool :=
  s.targets[v].power = .active && s.targets[v].overflows s.desk.coalesce (s.targets[v].stillReport (s.desktop v) 0 (s.buttonSet v))

theorem State.reportOverflows_of_inactive {v : Target} {s : State} (h : s.targets[v].power ≠ .active) : s.reportOverflows v = false := by
  rw [State.reportOverflows, decide_eq_false h, Bool.false_and]

/-- v's port after a button report (R43, R96, R109, R153). -/
def State.portReporting (v : Target) (s : State) : TargetPort :=
  let p := s.targets[v]
  let r := p.stillReport (s.desktop v) 0 (s.buttonSet v)
  match p.power with
  | .active =>
    let q := p.offer s.desk.coalesce r
    q.finish (s.keyStates[v].view q.mode) (s.buttonSet v) (s.desktop v) s.desk.stallTime
  | .waking => p.offerHold r
  | .absent | .suspended => p

theorem State.raise_modTarget {v : Target} {f : TargetPort → TargetPort} (hf : ∀ p : TargetPort, (f p).attached = p.attached) (k : NoticeKind)
    (i : Fin 16) (s : State) : (s.modTarget v f).raise k i = (s.raise k i).modTarget v f := by
  unfold State.raise
  rw [State.noticeTargets_modTarget hf]
  rfl

/-- The end of the event that changed v's port (R112, R114, R118). -/
theorem State.portEnd_modTarget (v : Target) (f : TargetPort → TargetPort) (s : State) : (s.modTarget v f).portEnd v =
    s.modTarget v fun _ => (f s.targets[v]).finish (s.keyStates[v].view (f s.targets[v]).mode) (s.buttonSet v) (s.desktop v)
      s.desk.stallTime := by
  have hport : (s.modTarget v f).targets[v] = f s.targets[v] := upd_get ..
  unfold State.portEnd State.view
  rw [hport]
  show ({ s with targets := upd (upd s.targets v f) v _ } : State) = _
  rw [upd_upd]
  rfl

/-- A button report changes its target's port, raises the overflow where there is one, and nothing else. -/
theorem State.buttonReport_eq (v : Target) (s : State) : s.buttonReport v =
    (if s.reportOverflows v then s.raise .deliveryOverflow (eightSubject v) else s).modTarget v fun _ => s.portReporting v := by
  have hsame : ∀ p : TargetPort, s.targets[v] = p → s = s.modTarget v fun _ => p := fun p hp => by
    rw [State.modTarget, upd_eq_self _ _ _ hp.symm]
  have hattached : ∀ (r : Report) (p : TargetPort), (p.offer s.desk.coalesce r).attached = p.attached := fun r p => (TargetPort.offer_keeps ..).1
  cases hp : s.targets[v].power with
  | active =>
    have hover : s.reportOverflows v = s.targets[v].overflows s.desk.coalesce (s.targets[v].stillReport (s.desktop v) 0 (s.buttonSet v)) := by
      rw [State.reportOverflows, hp]
      rfl
    simp only [State.buttonReport, State.offerReport, State.portReporting, hp, hover]
    split
    · rw [State.raise_modTarget (hattached _), State.portEnd_modTarget]
      rfl
    · rw [State.portEnd_modTarget]
  | waking =>
    have hover := State.reportOverflows_of_inactive (s := s) (v := v) (by rw [hp]; decide)
    simp only [State.buttonReport, State.offerReport, State.portReporting, hp, hover, Bool.false_eq_true, if_false]
    rfl
  | absent | suspended =>
    have hover := State.reportOverflows_of_inactive (s := s) (v := v) (by rw [hp]; decide)
    simp only [State.buttonReport, State.offerReport, State.portReporting, hp, hover, Bool.false_eq_true, if_false]
    exact hsame _ rfl

/-- What two states must share for a report of v to be the same. -/
theorem State.Delivers.reporting {v : Target} {s t : State} (h : s.Delivers t) (htarget : t.targets[v] = s.targets[v]) :
    t.portReporting v = s.portReporting v ∧ t.reportOverflows v = s.reportOverflows v := by
  have hkeys : t.keyStates = s.keyStates := h.keyStates
  have hactive : t.active = s.active := (congrArg State.active h :)
  have hdesk : t.desk = s.desk := (congrArg State.desk h :)
  simp only [State.portReporting, State.reportOverflows, State.buttonSet, State.desktop, htarget, hkeys, hactive, hdesk, and_self]

/-- A subject that is in its set is raised again without a change (R173). -/
theorem State.raise_known {k : NoticeKind} {i : Fin 16} {s : State} (h : has (s.subjects k) i = true) : s.raise k i = s := by
  have hset : adjoin (s.subjects k) i = s.subjects k := set_ext fun j => by
    rw [has_adjoin]
    by_cases hj : j = i
    · rw [hj, h, Bool.true_or]
    · rw [decide_eq_false hj, Bool.or_false]
  have hnotices : upd s.notices k.index (fun _ => s.subjects k) = s.notices := upd_eq_self _ _ _ rfl
  unfold State.raise
  dsimp only
  rw [hset, hnotices, if_pos h, List.append_nil]

theorem State.buttonReport_targets (u v : Target) (s : State) :
    (s.buttonReport v).targets[u] = if u = v then s.portReporting v else s.targets[u] := by
  have htargets : (if s.reportOverflows v then s.raise .deliveryOverflow (eightSubject v) else s).targets = s.targets := by
    split <;> rfl
  rw [State.buttonReport_eq, State.modTarget_targets, upd_get_eq, htargets]

theorem State.buttonReport_subjects {v : Target} {k : NoticeKind} {s : State} (h : k ≠ .deliveryOverflow) :
    (s.buttonReport v).subjects k = s.subjects k := by
  rw [State.buttonReport_eq]
  show (if s.reportOverflows v then s.raise .deliveryOverflow (eightSubject v) else s).subjects k = s.subjects k
  split
  · rw [State.raise_subjects, if_neg h]
  · rfl

theorem State.buttonReport_overflows (v : Target) (j : Fin 16) (s : State) : has ((s.buttonReport v).subjects .deliveryOverflow) j = true ↔
    has (s.subjects .deliveryOverflow) j = true ∨ s.reportOverflows v = true ∧ j = eightSubject v := by
  rw [State.buttonReport_eq]
  show has ((if s.reportOverflows v then s.raise .deliveryOverflow (eightSubject v) else s).subjects .deliveryOverflow) j = true ↔ _
  cases s.reportOverflows v with
  | true => simp [State.raise_has]
  | false => simp

/-- A report that leaves the notice record as it was sends nothing. -/
theorem State.buttonReport_quiet {v : Target} {s : State}
    (h : s.reportOverflows v = true → has (s.subjects .deliveryOverflow) (eightSubject v) = true) :
    (s.buttonReport v).notices = s.notices ∧ (s.buttonReport v).sent = s.sent := by
  have hsame : (if s.reportOverflows v then s.raise .deliveryOverflow (eightSubject v) else s) = s := by
    split
    · rename_i hover
      exact State.raise_known (h hover)
    · rfl
  rw [State.buttonReport_eq, hsame]
  exact ⟨rfl, rfl⟩

/-! ## The button reports of several targets (R43, R47) -/

/-- What reports of the targets of l do: each to its own port, as if it were alone. -/
structure State.Reports (l : List Target) (s t : State) : Prop where
  targets  : ∀ v : Target, t.targets[v] = if v ∈ l then s.portReporting v else s.targets[v]
  subjects : ∀ k : NoticeKind, k ≠ .deliveryOverflow → t.subjects k = s.subjects k
  overflow : ∀ j : Fin 16, has (t.subjects .deliveryOverflow) j = true ↔
    has (s.subjects .deliveryOverflow) j = true ∨ ∃ v ∈ l, s.reportOverflows v = true ∧ j = eightSubject v
  quiet    : t.notices = s.notices → t.sent = s.sent

theorem State.foldl_buttonReport_reports {l : List Target} (h : l.Nodup) (s : State) :
    s.Reports l (l.foldl (fun acc t => acc.buttonReport t) s) := by
  induction l generalizing s with
  | nil => exact ⟨fun v => by simp, fun _ _ => rfl, fun j => by simp, fun _ => rfl⟩
  | cons b l ih =>
    obtain ⟨hb, hl⟩ := List.nodup_cons.1 h
    obtain ⟨htargets, hsubjects, hoverflow, hquiet⟩ := ih hl (s.buttonReport b)
    have hsame : ∀ v ∈ l, (s.buttonReport b).portReporting v = s.portReporting v ∧ (s.buttonReport b).reportOverflows v = s.reportOverflows v :=
      fun v hv => by
        have hne : v ≠ b := fun e => hb (e ▸ hv)
        exact (s.buttonReport_delivers b).reporting (by rw [State.buttonReport_targets, if_neg hne])
    have hall : ∀ j : Fin 16, has (((b :: l).foldl (fun acc t => acc.buttonReport t) s).subjects .deliveryOverflow) j = true ↔
        has (s.subjects .deliveryOverflow) j = true ∨ ∃ v ∈ b :: l, s.reportOverflows v = true ∧ j = eightSubject v := fun j => by
      rw [List.foldl_cons, hoverflow, State.buttonReport_overflows, List.exists_mem_cons_iff, or_assoc]
      refine or_congr_right (or_congr_right (exists_congr fun v => and_congr_right fun hv => ?_))
      rw [(hsame v hv).2]
    refine ⟨fun v => ?_, fun k hk => (hsubjects k hk).trans (State.buttonReport_subjects hk), hall, fun hn => ?_⟩
    · rw [List.foldl_cons, htargets, State.buttonReport_targets]
      by_cases hv : v ∈ l
      · rw [if_pos hv, if_pos (List.mem_cons_of_mem b hv), (hsame v hv).1]
      · rw [if_neg hv]
        by_cases hvb : v = b
        · rw [if_pos hvb, if_pos (hvb ▸ List.mem_cons_self), hvb]
        · rw [if_neg hvb, if_neg (by simp [hvb, hv])]
    · have hknown : s.reportOverflows b = true → has (s.subjects .deliveryOverflow) (eightSubject b) = true := fun hover => by
        have hafter := (hall (eightSubject b)).2 (.inr ⟨b, List.mem_cons_self, hover, rfl⟩)
        rwa [State.subjects, hn] at hafter
      obtain ⟨hnotices, hsent⟩ := State.buttonReport_quiet hknown
      exact (hquiet (hn.trans hnotices.symm)).trans hsent

/-- The targets that are sent a button report: the button set changed, the receiver apart (R43). -/
theorem State.buttonReports_reports (before : State) (receiver : Target) (s : State) :
    s.Reports ((List.finRange 8).filter fun t => t != receiver && s.buttonSet t != before.buttonSet t)
      (State.buttonReports before receiver s) :=
  State.foldl_buttonReport_reports ((List.nodup_finRange 8).filter _) s

theorem mem_changedTargets {before s : State} {receiver v : Target} :
    v ∈ (List.finRange 8).filter (fun t => t != receiver && s.buttonSet t != before.buttonSet t) ↔
      v ≠ receiver ∧ s.buttonSet v ≠ before.buttonSet v := by
  simp

/-! ## Stage 3 (R89, R90) -/

theorem State.followRegion_of_region {crossed : Bool} {region : Region} {r : Target} {s : State}
    (hregion : s.regionAt (s.glide.px / 16) (s.glide.py / 16) = some region) (hr : s.regionTarget region = some r) :
    s.followRegion crossed =
      if r = s.focus.target then { s with focus := { s.focus with region := region } }
      else if crossed then State.switchTo r .glide 0 region { s with focus := { s.focus with region := region } }
      else if s.holdsPoint s.focus.target (s.glide.px / 16) (s.glide.py / 16) && (s.focus.lock || s.followingHeld) then
        { s with focus := { s.focus with region := region } }
      else State.switchTo r .window 0 region { s with focus := { s.focus with region := region } } := by
  unfold State.followRegion
  rw [State.recordRegion_eq hregion]
  simp only [show State.regionTarget { s with focus := { s.focus with region := region } } region = some r from hr]
  rfl

/-- The focus target keeps the pointer: it holds the point, and the lock or a held following button keeps it (R90). -/
theorem State.keeps_iff {s : State} {b : Bool} : (b && (s.focus.lock || s.followingHeld)) = true ↔
    b = true ∧ (s.focus.lock = true ∨ s.FollowingHeld) := by
  rw [Bool.and_eq_true, Bool.or_eq_true, State.followingHeld_iff]

/-! ## Swallowed presses (R91) -/

theorem State.swallows_iff {s : State} {region : Region} : s.swallows region = true ↔ ∃ w : Window, region = .window w ∧
    (s.active.windows[w].interactive = true →
      ∀ o : Target, s.active.heads[s.active.windows[w].source].owner = some o → s.targets[o].power = .absent) := by
  cases region with
  | screen d => simp [State.swallows]
  | window w =>
    have hlive : (s.liveWindowOwner w).isNone = true ↔ (s.active.windows[w].interactive = true →
        ∀ o : Target, s.active.windowOwner w = some o → s.targets[o].power = .absent) := by
      unfold State.liveWindowOwner
      rw [Option.isNone_iff_eq_none]
      split
      · rename_i hi
        rw [Option.filter_eq_none_iff]
        simp only [Bool.not_eq_true', Bool.not_eq_false, State.isAbsent_iff]
        exact ⟨fun h _ => h, fun h => h hi⟩
      · rename_i hi
        exact iff_of_true rfl fun h => absurd h hi
    constructor
    · exact fun h => ⟨w, rfl, hlive.1 h⟩
    · rintro ⟨v, hv, h⟩
      obtain rfl := Region.window.inj hv
      exact hlive.2 h

end Sys2Proof.Machine
end

section
/-! SUPPORT. A pointer event through its stages: what each leaves of routes, pointer and focus (R81). -/

namespace Sys2Proof.Machine

/-! ## What routes a press, and what is kept of it -/

/-- From s to t layout, tables and shown set stay, and target ports in their power states but for wakes begun (R150). -/
structure State.KeepsRoutes (s t : State) : Prop where
  plane : t.scene.plane = s.scene.plane
  store : t.scene.store = s.scene.store
  power : ∀ u : Target, t.targets[u].power = s.targets[u].power ∨ s.targets[u].power = .suspended ∧ t.targets[u].power = .waking

theorem State.FocusChangeOnly.routes {s t : State} (h : s.FocusChangeOnly t) : s.KeepsRoutes t := by
  obtain ⟨heq, -, hsettings⟩ := h
  refine ⟨?_, ?_, fun u => (hsettings u).2.2.2.2.2⟩
  · rw [heq]
    rfl
  · rw [heq]
    rfl

section
variable {s t u : State}

theorem State.KeepsRoutes.trans (h : s.KeepsRoutes t) (k : t.KeepsRoutes u) : s.KeepsRoutes u := by
  refine ⟨k.plane.trans h.plane, k.store.trans h.store, fun v => ?_⟩
  rcases h.power v with hv | ⟨hv, hv'⟩
  · rw [← hv]
    exact k.power v
  · exact .inr ⟨hv, (k.power v).elim (·.trans hv') fun hw => absurd (hv'.symm.trans hw.1) (by decide)⟩

theorem State.BooksOnly.routes (h : s.BooksOnly t) : s.KeepsRoutes t := by
  rw [h]
  exact ⟨rfl, rfl, fun _ => .inl rfl⟩

theorem State.KeepsRoutes.active (h : s.KeepsRoutes t) : t.active = s.active := congrArg Plane.layout h.plane

theorem State.KeepsRoutes.consoles (h : s.KeepsRoutes t) : t.consoles = s.consoles := congrArg Store.consoles h.store

theorem State.KeepsRoutes.isAbsent (h : s.KeepsRoutes t) : t.isAbsent = s.isAbsent := by
  funext v
  unfold State.isAbsent
  rcases h.power v with hv | ⟨hv, hv'⟩
  · rw [hv]
  · rw [hv, hv']
    rfl

theorem State.KeepsRoutes.regionAt (h : s.KeepsRoutes t) : t.regionAt = s.regionAt := State.regionAt_congr h.plane

theorem State.KeepsRoutes.regionTarget (h : s.KeepsRoutes t) : t.regionTarget = s.regionTarget := by
  funext region
  cases region with
  | screen d => simp only [State.regionTarget, h.active]
  | window w => simp only [State.regionTarget, State.liveWindowOwner, h.active, h.isAbsent]

theorem State.KeepsRoutes.swallows (h : s.KeepsRoutes t) : t.swallows = s.swallows := by
  funext region
  cases region with
  | screen d => rfl
  | window w => simp only [State.swallows, State.liveWindowOwner, h.active, h.isAbsent]

/-- An ACTIVE or WAKING target takes presses still. -/
theorem State.KeepsRoutes.takes (h : s.KeepsRoutes t) {v : Target} (hv : s.targets[v].power = .active ∨ s.targets[v].power = .waking) :
    t.TakesPress v := by
  rcases h.power v with hp | ⟨-, hp⟩
  · exact hv.imp (hp.trans ·) fun hw => .inl (hp.trans hw)
  · exact .inr (.inl hp)

theorem State.Delivers.consoles (h : s.Delivers t) : t.consoles = s.consoles := (congrArg State.consoles h :)

end

/-! ## Stages 2 and 3 -/

theorem State.place_focusOnly (q : Nat × Nat) (pr : Option Pressure) (s : State) : s.FocusChangeOnly (s.place q pr) :=
  ⟨rfl, fun _ => rfl, fun _ => TargetPort.KeepsSettings.refl _⟩

theorem State.withPressure_focusOnly (pr : Option Pressure) (s : State) : s.FocusChangeOnly (s.withPressure pr) :=
  ⟨rfl, fun _ => rfl, fun _ => TargetPort.KeepsSettings.refl _⟩

theorem State.settleFrom_focusOnly (p : Place) (q : Int × Int) (s : State) : s.FocusChangeOnly (s.settleFrom p q).1 := by
  unfold State.settleFrom
  dsimp only
  repeat' split
  all_goals exact State.place_focusOnly ..

theorem State.settle_focusOnly (sx sy : Int) (s : State) : s.FocusChangeOnly (s.settle sx sy).1 := by
  unfold State.settle
  rw [State.awayTest_eq]
  dsimp only
  split
  · exact (s.withPressure_focusOnly _).trans (State.settleFrom_focusOnly ..)
  · exact s.withPressure_focusOnly _

theorem State.followRegion_focusOnly (crossed : Bool) (s : State) : s.FocusChangeOnly (s.followRegion crossed) := by
  have hrecorded := s.recordRegion_focusOnly
  unfold State.followRegion
  dsimp only
  split
  · exact hrecorded
  split
  · exact hrecorded
  split
  · exact hrecorded.trans (State.switchTo_focusOnly ..)
  split
  · exact hrecorded
  · exact hrecorded.trans (State.switchTo_focusOnly ..)

theorem State.switchTo_pointing {b : Target} (c : Cause) (m : ModSet) (r : Region) {s : State} (hb : b ≠ s.focus.target) :
    (s.switchTo b c m r).pointing =
      ({ s.focus with target := b, cause := c, region := r, history := pushHistory s.focus.target b s.focus.history },
        { s.glide with pressure := none }) := by
  obtain ⟨hfocus, hglide⟩ := Prod.mk.inj ((State.carryOver_pointing (s.leave s.focus.target) s s.focus.target b m).trans (s.leave_pointing _))
  rw [State.switchTo, if_neg hb, State.arrive_pointing, hfocus, hglide]

/-! ## Stages 4 and 5 -/

theorem State.wokenFor_pointing (dest : Option Target) (s : State) : (s.wokenFor dest).pointing = s.pointing := by
  cases dest with
  | none => rfl
  | some v =>
    unfold State.wokenFor State.wokenByPress
    dsimp only
    split
    · exact s.wakeRequest_pointing v
    · rfl

theorem State.wokenFor_focusOnly (dest : Option Target) (s : State) : s.FocusChangeOnly (s.wokenFor dest) := by
  cases dest with
  | none => exact .refl s
  | some v =>
    unfold State.wokenFor State.wokenByPress
    dsimp only
    split
    · exact s.wakeRequest_focusOnly v
    · exact .refl s

theorem State.accountButtons_pointing (e : PointerEvent) (dest : Option Target) (s : State) :
    (s.accountButtons e dest).pointing = s.pointing := by
  have hbooks : (s.accountButtons e dest).pointing = (if e.presses = 0 then s else s.wokenFor dest).pointing := by
    rw [s.accountButtons_booksOnly e dest]
    rfl
  rw [hbooks]
  split
  · rfl
  · exact s.wokenFor_pointing dest

theorem State.accountButtons_routes (e : PointerEvent) (dest : Option Target) (s : State) : s.KeepsRoutes (s.accountButtons e dest) := by
  have hwoken : s.KeepsRoutes (if e.presses = 0 then s else s.wokenFor dest) := by
    split
    · exact (State.FocusChangeOnly.refl s).routes
    · exact (s.wokenFor_focusOnly dest).routes
  exact hwoken.trans (s.accountButtons_booksOnly e dest).routes

theorem State.buttonReports_focusOnly (before : State) (receiver : Target) (s : State) :
    s.FocusChangeOnly (State.buttonReports before receiver s) := by
  have hall : ∀ (l : List Target) (x : State), x.FocusChangeOnly (l.foldl (fun acc t => acc.buttonReport t) x) := by
    intro l
    induction l with
    | nil => exact fun x => .refl x
    | cons b l ih => exact fun x => (x.buttonReport_focusOnly b).trans (ih _)
  exact hall _ _

section
variable (e : PointerEvent) (dest : Option Target) (receiver : Target) (q : Option (Nat × Nat)) (entry : Bool) (s : State)

theorem State.buttonsAndReport_focusOnly : (s.accountButtons e dest).FocusChangeOnly (s.buttonsAndReport e dest receiver q entry) := by
  unfold State.buttonsAndReport
  cases q with
  | some q => exact (State.buttonReports_focusOnly ..).trans (State.pointerReport_focusOnly ..)
  | none => exact State.buttonReports_focusOnly ..

theorem State.buttonsAndReport_routes : s.KeepsRoutes (s.buttonsAndReport e dest receiver q entry) :=
  (s.accountButtons_routes e dest).trans (s.buttonsAndReport_focusOnly e dest receiver q entry).routes

theorem State.buttonsAndReport_pointing : (s.buttonsAndReport e dest receiver q entry).pointing = s.pointing := by
  have hdelivered := s.buttonsAndReport_delivers e dest receiver q entry
  refine Eq.trans ?_ (s.accountButtons_pointing e dest)
  rw [hdelivered]
  rfl

/-- The held set of the event's port is the event's from stage 4 on (R47). -/
theorem State.buttonsAndReport_held : (s.buttonsAndReport e dest receiver q entry).ports[e.port].held = e.buttons := by
  rw [(s.buttonsAndReport_delivers e dest receiver q entry).ports, (s.accountButtons_touches e dest).port, State.setHeld_self]

end

/-! ## Stage 6 (R61) -/

/-- No following button is held (R61). -/
abbrev State.NoneHeld (consoles : Vector ConsoleEntry 4) (s : State) : Prop :=
  ∀ q : Port, consoles[q].pin = none → s.ports[q].held = 0

theorem State.followingHeld_eq_false_iff {s : State} : s.followingHeld = false ↔ s.NoneHeld s.consoles := by
  rw [← Bool.not_eq_true, State.followingHeld_iff]
  simp only [State.FollowingHeld, State.NoneHeld, not_exists, not_and, ne_eq, not_not]

theorem State.completeRelease_eq (e : PointerEvent) (s : State) :
    s.completeRelease e = if e.releases ≠ 0 ∧ s.NoneHeld s.consoles then s.reevaluate .window 0 else s := by
  unfold State.completeRelease
  refine if_congr ?_ rfl rfl
  rw [Bool.and_eq_true, Bool.not_eq_true', State.followingHeld_eq_false_iff, bne_iff_ne]

/-- With a following button held nothing follows. -/
theorem State.completeRelease_held {e : PointerEvent} {p : Port} {s : State} (hpin : s.consoles[p].pin = none) (hheld : s.ports[p].held ≠ 0) :
    s.completeRelease e = s := by
  rw [State.completeRelease_eq, if_neg fun h => hheld (h.2 p hpin)]

theorem State.completeRelease_pointer (e : PointerEvent) (s : State) :
    (s.completeRelease e).glide.px = s.glide.px ∧ (s.completeRelease e).glide.py = s.glide.py := by
  unfold State.completeRelease
  split
  · exact State.reevaluate_pointer ..
  · exact ⟨rfl, rfl⟩

/-- Where the region's target has focus, at most the region is recorded. -/
theorem State.completeRelease_stays {e : PointerEvent} {region : Region} {s : State}
    (hregion : s.regionAt (s.glide.px / 16) (s.glide.py / 16) = some region) (hr : s.regionTarget region = some s.focus.target) :
    (s.completeRelease e).focus.target = s.focus.target ∧ (s.completeRelease e).focus.cause = s.focus.cause := by
  unfold State.completeRelease
  split
  · rw [State.reevaluate_stays hregion hr (.inr rfl)]
    exact ⟨rfl, rfl⟩
  · exact ⟨rfl, rfl⟩

/-- A re-evaluation while focus is detached records the region and does nothing else (R60). -/
theorem State.reevaluate_detached {c : Cause} {m : ModSet} {s : State} (h : s.focus.detached = true) : s.reevaluate c m = s.recordRegion := by
  have hd : s.recordRegion.focus.detached = true := h
  unfold State.reevaluate
  dsimp only
  split
  · rfl
  · rw [hd, Bool.true_or, if_pos rfl]

theorem State.completeRelease_detached {e : PointerEvent} {s : State} (h : s.focus.detached = true) :
    (s.completeRelease e).glide = s.glide ∧ (s.completeRelease e).focus.target = s.focus.target ∧
    (s.completeRelease e).focus.detached = true := by
  unfold State.completeRelease
  split
  · rw [State.reevaluate_detached h]
    exact ⟨rfl, rfl, h⟩
  · exact ⟨rfl, rfl, h⟩

/-! ## The event of a following port (R81) -/

theorem State.scaledStep_eq (p : Port) (dx dy : Int) (s : State) : s.scaledStep p dx dy =
    (max (-65520) (min 65520 (dx * s.gain p dx dy)), max (-65520) (min 65520 (dy * s.gain p dx dy))) := by
  unfold State.scaledStep
  dsimp only
  rw [clamp_eq _ _ _ (by decide), clamp_eq _ _ _ (by decide)]
  rfl

/-- Stages 2 and 3 of an event: the pointer settled, the region recorded, and focus with it. -/
def State.arrived (e : PointerEvent) (s : State) : State :=
  let settled := s.settle (s.scaledStep e.port e.dx e.dy).1 (s.scaledStep e.port e.dx e.dy).2
  settled.1.followRegion settled.2

/-- Where the presses of the event go (R91). -/
def State.pressDest (s : State) : Option Target := if s.swallows s.focus.region then none else some s.focus.target

/-- Stages 2 to 5 of an event. -/
def State.reported (e : PointerEvent) (s : State) : State :=
  let s3 := s.arrived e
  s3.buttonsAndReport e s3.pressDest s3.focus.target (s3.translate s3.focus.target s3.pointer.1 s3.pointer.2)
    (s3.focus.target != s.focus.target)

theorem State.pointerEvent_following {e : PointerEvent} {s : State} (hpin : s.consoles[e.port].pin = none) (hd : s.focus.detached = false) :
    s.pointerEvent e = (s.reported e).completeRelease e := by
  have hpin' : s.pin e.port = none := hpin
  rw [State.pointerEvent, hpin', hd]
  rfl

theorem State.arrived_focusOnly (e : PointerEvent) (s : State) : s.FocusChangeOnly (s.arrived e) :=
  (s.settle_focusOnly ..).trans (State.followRegion_focusOnly ..)

theorem State.reported_routes (e : PointerEvent) (s : State) : s.KeepsRoutes (s.reported e) :=
  (s.arrived_focusOnly e).routes.trans (State.buttonsAndReport_routes ..)

theorem State.reported_pointing (e : PointerEvent) (s : State) : (s.reported e).pointing = (s.arrived e).pointing :=
  State.buttonsAndReport_pointing ..

/-- Stage 3 leaves the pointer. -/
theorem State.followRegion_pointer (crossed : Bool) (s : State) :
    (s.followRegion crossed).glide.px = s.glide.px ∧ (s.followRegion crossed).glide.py = s.glide.py := by
  obtain ⟨r, hscene, -⟩ := s.followRegion_target crossed
  exact ⟨congrArg Scene.px hscene, congrArg Scene.py hscene⟩

/-- The pointer of an event is where stage 2 settles it. -/
theorem State.pointerEvent_pointer {e : PointerEvent} {s : State} (hpin : s.consoles[e.port].pin = none) (hd : s.focus.detached = false) :
    let settled := (s.settle (s.scaledStep e.port e.dx e.dy).1 (s.scaledStep e.port e.dx e.dy).2).1
    (s.pointerEvent e).glide.px = settled.glide.px ∧ (s.pointerEvent e).glide.py = settled.glide.py := by
  obtain ⟨hx, hy⟩ := (s.reported e).completeRelease_pointer e
  have hglide : (s.reported e).glide = (s.arrived e).glide := (Prod.mk.inj (s.reported_pointing e)).2
  obtain ⟨hx', hy'⟩ := State.followRegion_pointer (s.settle (s.scaledStep e.port e.dx e.dy).1 (s.scaledStep e.port e.dx e.dy).2).2
    (s.settle (s.scaledStep e.port e.dx e.dy).1 (s.scaledStep e.port e.dx e.dy).2).1
  rw [State.pointerEvent_following hpin hd]
  rw [hglide] at hx hy
  exact ⟨hx.trans hx', hy.trans hy'⟩

/-- A crossing switches to the target of the region landed in, with cause GLIDE, and the event's end leaves it (R89). -/
theorem State.pointerEvent_crosses {e : PointerEvent} {x : State} {region : Region} {r : Target} {s : State}
    (hpin : s.consoles[e.port].pin = none) (hd : s.focus.detached = false)
    (hsettle : s.settle (s.scaledStep e.port e.dx e.dy).1 (s.scaledStep e.port e.dx e.dy).2 = (x, true))
    (hregion : s.regionAt (x.glide.px / 16) (x.glide.py / 16) = some region) (hr : s.regionTarget region = some r)
    (hne : r ≠ s.focus.target) (hfocus : x.focus = s.focus) :
    (s.pointerEvent e).focus.target = r ∧ (s.pointerEvent e).focus.cause = .glide := by
  have hx : s.KeepsRoutes x := by
    have := (s.settle_focusOnly (s.scaledStep e.port e.dx e.dy).1 (s.scaledStep e.port e.dx e.dy).2).routes
    rwa [hsettle] at this
  have harrived : s.arrived e = State.switchTo r .glide 0 region { x with focus := { x.focus with region := region } } := by
    rw [State.arrived, hsettle]
    dsimp only
    rw [State.followRegion_of_region (hx.regionAt ▸ hregion) (hx.regionTarget ▸ hr), if_neg (by rw [hfocus]; exact hne), if_pos rfl]
  have hne' : r ≠ ({ x with focus := { x.focus with region := region } } : State).focus.target := by
    show r ≠ x.focus.target
    rw [hfocus]
    exact hne
  obtain ⟨hfocus3, hglide3⟩ := Prod.mk.inj (State.switchTo_pointing .glide 0 region hne')
  rw [← harrived] at hfocus3 hglide3
  obtain ⟨hfocus5, hglide5⟩ := Prod.mk.inj (s.reported_pointing e)
  have hroutes := s.reported_routes e
  rw [State.pointerEvent_following hpin hd]
  have htarget : (s.reported e).focus.target = r := by rw [hfocus5, hfocus3]
  have hcause : (s.reported e).focus.cause = .glide := by rw [hfocus5, hfocus3]
  obtain ⟨ht, hc⟩ := State.completeRelease_stays (e := e) (s := s.reported e) (region := region)
    (by rw [hroutes.regionAt, hglide5, hglide3]; exact hregion) (by rw [hroutes.regionTarget, htarget]; exact hr)
  exact ⟨ht.trans htarget, hc.trans hcause⟩

end Sys2Proof.Machine
end

section
/-! PROOFS. Pointer events (O20). -/

namespace Sys2Proof.Machine

/-! ## Stage 2, in the obligation's terms (R83 to R87) -/

/-- A candidate clamped to a rectangle that is not empty, axis by axis (R88). -/
theorem Rect.clampPoint_spec {r : Rect} (h : r.isEmpty = false) (qx qy : Int) :
    r.contains ((r.clampPoint (qx, qy)).1 / 16) ((r.clampPoint (qx, qy)).2 / 16) = true ∧
    (qx / 16 < r.x → (r.clampPoint (qx, qy)).1 = r.x * 16) ∧
    ((r.x : Int) + r.w ≤ qx / 16 → (r.clampPoint (qx, qy)).1 = (r.x + r.w - 1) * 16 + 15) ∧
    ((r.x : Int) ≤ qx / 16 → qx / 16 < (r.x : Int) + r.w → ((r.clampPoint (qx, qy)).1 : Int) = qx) ∧
    (qy / 16 < r.y → (r.clampPoint (qx, qy)).2 = r.y * 16) ∧
    ((r.y : Int) + r.h ≤ qy / 16 → (r.clampPoint (qx, qy)).2 = (r.y + r.h - 1) * 16 + 15) ∧
    ((r.y : Int) ≤ qy / 16 → qy / 16 < (r.y : Int) + r.h → ((r.clampPoint (qx, qy)).2 : Int) = qy) := by
  obtain ⟨hw, hh⟩ := Rect.not_isEmpty_iff.1 h
  refine ⟨Rect.contains_clampPoint hw hh _, clampAxis_below, fun hb => clampAxis_beyond (by omega) (by push_cast; exact hb),
    fun hl hb => clampAxis_within hl (by push_cast; exact hb), clampAxis_below,
    fun hb => clampAxis_beyond (by omega) (by push_cast; exact hb), fun hl hb => clampAxis_within hl (by push_cast; exact hb)⟩

/-- The step leads from the pressed edge, or along it (R87). -/
theorem not_awayFrom_eq (sx sy : Int) (e : Edge) : (!awayFrom e sx sy) = match e with
    | .right => decide (0 ≤ sx)
    | .left => decide (sx ≤ 0)
    | .bottom => decide (0 ≤ sy)
    | .top => decide (sy ≤ 0) := by
  cases e
  all_goals simp only [awayFrom, ← decide_not, not_lt]

theorem State.lockHolds_eq_true_iff {p : Place} {s : State} : s.lockHolds p = true ↔
    s.focus.lock = true ∧ s.active.displayOwner p.display ≠ some s.focus.target := by
  rw [State.lockHolds, Bool.and_eq_true, bne_iff_ne]

theorem State.lockHolds_eq_false_iff {p : Place} {s : State} : s.lockHolds p = false ↔
    s.focus.lock = false ∨ s.active.displayOwner p.display = some s.focus.target := by
  rw [← Bool.not_eq_true, State.lockHolds_eq_true_iff, not_and_or, not_not, Bool.not_eq_true]

/-! ## The buttons of an event (R47, R91) -/

/-- The wake of an event's presses, as R45 gives it. -/
theorem State.wokenFor_eq (e : PointerEvent) (dest : Option Target) (s : State) : (if e.presses = 0 then s else s.wokenFor dest) =
    match dest with
    | some v => if e.presses ≠ 0 ∧ s.WakesOnPress v then s.wakeRequest v else s
    | none => s := by
  cases dest with
  | none => exact ite_self _
  | some v =>
    dsimp only
    by_cases h : e.presses = 0
    · rw [if_pos h, if_neg fun hp => hp.1 h]
    · rw [if_neg h]
      exact if_congr (and_iff_right h).symm rfl rfl

/-- A button pressed while its port follows keeps a following button held, so that the event ends without a re-evaluation (R61). -/
theorem State.completeRelease_pressed {e : PointerEvent} {b : Button} {dest : Option Target} {receiver : Target} {q : Option (Nat × Nat)}
    {entry : Bool} {s : State} (hpin : s.consoles[e.port].pin = none) (hb : has e.buttons b = true) :
    (s.buttonsAndReport e dest receiver q entry).completeRelease e = s.buttonsAndReport e dest receiver q entry := by
  refine State.completeRelease_held (p := e.port) ?_ ?_
  · rw [(s.buttonsAndReport_routes e dest receiver q entry).consoles]
    exact hpin
  · rw [State.buttonsAndReport_held]
    exact has_nonzero hb

/-- A pressed button is booked at a destination that is ACTIVE or WAKING. -/
theorem State.buttonsAndReport_books {e : PointerEvent} {b : Button} {u receiver : Target} {q : Option (Nat × Nat)}
    {entry : Bool} {s : State} (hb : has e.presses b = true) (hu : s.TakesPress u) :
    (s.buttonsAndReport e (some u) receiver q entry).keyStates[u].holds e.port (.button b) = true := by
  rw [(State.buttonsAndReport_delivers ..).keyStates]
  exact ((State.accountButtons_presses hb (some u) s).taken u rfl (State.buttonsReleased_takes u |>.2 hu)).2.1

/-- A swallowed one is suppressed. -/
theorem State.buttonsAndReport_swallows {e : PointerEvent} {b : Button} {receiver : Target} {q : Option (Nat × Nat)}
    {entry : Bool} {s : State} (hb : has e.presses b = true) :
    (s.buttonsAndReport e none receiver q entry).ports[e.port].suppressed (.button b) = true := by
  rw [(State.buttonsAndReport_delivers ..).ports]
  exact ((State.accountButtons_presses hb none s).swallowed rfl).1

/-! ## Detached motion (R99) -/

theorem clampDesktop_eq (size : Nat) (v : Int) : clampDesktop size v = (min ((size : Int) * 16 - 1) (max 0 v)).toNat := by
  unfold clampDesktop clamp
  split
  · omega
  · split <;> omega

/-- s with the detached pointer at a point. -/
def State.withDetached (q : Nat × Nat) (s : State) : State := { s with glide := { s.glide with detached := some q } }

theorem State.pointerEvent_detached {e : PointerEvent} {s : State} (hpin : s.consoles[e.port].pin = none) (hd : s.focus.detached = true) :
    s.pointerEvent e = s.detachedMotion e := by
  have hpin' : s.pin e.port = none := hpin
  rw [State.pointerEvent, hpin', hd]
  rfl

/-- Where a step moves the detached pointer from a point (R99). -/
def State.detachedPoint (e : PointerEvent) (px py : Nat) (s : State) : Nat × Nat :=
  ((min ((s.active.desktops[s.focus.target].dw : Int) * 16 - 1)
      (max 0 (px + max (-65520) (min 65520 (e.dx * s.gain e.port e.dx e.dy))))).toNat,
    (min ((s.active.desktops[s.focus.target].dh : Int) * 16 - 1)
      (max 0 (py + max (-65520) (min 65520 (e.dy * s.gain e.port e.dx e.dy))))).toNat)

/-- Stages 4 and 5 of detached motion. -/
def State.reportedDetached (e : PointerEvent) (q : Nat × Nat) (s : State) : State :=
  (s.withDetached q).buttonsAndReport e (some s.focus.target) s.focus.target (some (q.1 / 16, q.2 / 16)) false

theorem State.detachedMotion_reported (e : PointerEvent) (s : State) :
    ∃ q : Nat × Nat, s.detachedMotion e = (s.reportedDetached e q).completeRelease e := ⟨_, rfl⟩

theorem State.detachedMotion_eq {e : PointerEvent} {px py : Nat} {s : State} (h : s.glide.detached = some (px, py)) :
    s.detachedMotion e = (s.reportedDetached e (s.detachedPoint e px py)).completeRelease e := by
  unfold State.detachedMotion
  rw [State.scaledStep_eq, h]
  dsimp only [Option.getD_some]
  rw [clampDesktop_eq, clampDesktop_eq]
  rfl

theorem State.reportedDetached_routes (e : PointerEvent) (q : Nat × Nat) (s : State) : s.KeepsRoutes (s.reportedDetached e q) :=
  (State.KeepsRoutes.mk rfl rfl fun _ => .inl rfl : s.KeepsRoutes (s.withDetached q)).trans (State.buttonsAndReport_routes ..)

/-- What detached motion leaves and gives: the detached pointer moved, and focus as it was (R99). -/
theorem State.reportedDetached_kept {e : PointerEvent} {q : Nat × Nat} {s : State} (hd : s.focus.detached = true) :
    ((s.reportedDetached e q).completeRelease e).glide = { s.glide with detached := some q } ∧
    ((s.reportedDetached e q).completeRelease e).focus.target = s.focus.target ∧
    ((s.reportedDetached e q).completeRelease e).focus.detached = true := by
  obtain ⟨hfocus, hglide⟩ := Prod.mk.inj ((s.withDetached q).buttonsAndReport_pointing e (some s.focus.target) s.focus.target
    (some (q.1 / 16, q.2 / 16)) false)
  obtain ⟨hg, ht, hd'⟩ := State.completeRelease_detached (e := e) (s := s.reportedDetached e q)
    ((congrArg Focus.detached hfocus).trans hd)
  exact ⟨hg.trans hglide, ht.trans (congrArg Focus.target hfocus), hd'⟩

/-- The event's end, with the pins of the state the event found (R61). -/
theorem State.completeRelease_pins {e : PointerEvent} {s x : State} (h : s.KeepsRoutes x) :
    x.completeRelease e = if e.releases ≠ 0 ∧ x.NoneHeld s.consoles then x.reevaluate .window 0 else x := by
  rw [State.completeRelease_eq, h.consoles]

/-! ## Presses of a following port's event (R91) -/

theorem State.reported_focus (e : PointerEvent) (s : State) : (s.reported e).focus = (s.arrived e).focus :=
  (Prod.mk.inj (s.reported_pointing e)).1

/-- The event of a press ends with stage 5. -/
theorem State.pointerEvent_pressed {e : PointerEvent} {b : Button} {s : State} (hpin : s.consoles[e.port].pin = none)
    (hd : s.focus.detached = false) (hb : has e.buttons b = true) : s.pointerEvent e = s.reported e := by
  rw [State.pointerEvent_following hpin hd]
  exact State.completeRelease_pressed (by rw [(s.arrived_focusOnly e).routes.consoles]; exact hpin) hb

theorem State.reported_books {e : PointerEvent} {b : Button} {u : Target} {s : State} (hb : has e.presses b = true)
    (ht : (s.reported e).focus.target = u) (hs : s.swallows (s.reported e).focus.region = false)
    (hu : s.targets[u].power = .active ∨ s.targets[u].power = .waking) :
    (s.reported e).keyStates[u].holds e.port (.button b) = true := by
  have hroutes := (s.arrived_focusOnly e).routes
  rw [State.reported_focus, ← hroutes.swallows] at hs
  rw [State.reported_focus] at ht
  have hdest : (s.arrived e).pressDest = some u := by rw [State.pressDest, hs, ht]; rfl
  rw [State.reported, hdest]
  exact State.buttonsAndReport_books hb (hroutes.takes hu)

theorem State.reported_swallows {e : PointerEvent} {b : Button} {s : State} (hb : has e.presses b = true)
    (hs : s.swallows (s.reported e).focus.region = true) : (s.reported e).ports[e.port].suppressed (.button b) = true := by
  rw [State.reported_focus, ← (s.arrived_focusOnly e).routes.swallows] at hs
  have hdest : (s.arrived e).pressDest = none := by rw [State.pressDest, hs]; rfl
  rw [State.reported, hdest]
  exact State.buttonsAndReport_swallows hb

end Sys2Proof.Machine

open Sys2Proof Sys2Proof.Machine

/-- Settles O20, stage by stage of R81: the clamp and the overshoot (`Rect.clampPoint_spec`, `Rect.overshoot_spec`), the ways to settle
(`State.settle_held` and its siblings) and the crossing (`State.pointerEvent_crosses`), the presses, stage 3, each button of the event
(`State.accountButtons_touches`, `accountButtons_releases`, `accountButtons_presses`), the button reports, swallowed presses, the event as a
whole, and detached motion. -/
theorem clampedCandidateLiesInTheRectangle : Obligations.ClampedCandidateLiesInTheRectangle := by
  refine ⟨fun r qx qy h => Rect.clampPoint_spec h qx qy, fun r cx cy h hout => ?_, ?_, ?_, ?_, ?_, ?_, fun s region => State.swallows_iff, ?_, ?_⟩
  · obtain ⟨hw, hh⟩ := Rect.not_isEmpty_iff.1 h
    exact Rect.overshoot_spec hw hh hout
  · intro s e p hpin hd hl gain sx sy q cx cy f screen holding held own there kept settled reaches lands at' t
    have hkept : kept = s.keptPressure sx sy :=
      congrArg (fun c => s.glide.pressure.filter c) (funext fun pr => (not_awayFrom_eq sx sy pr.edge).symm)
    have hstep : s.scaledStep e.port e.dx e.dy = (sx, sy) := State.scaledStep_eq ..
    clear_value sx sy
    have hpointer := State.pointerEvent_pointer (e := e) hpin hd
    rw [hstep] at hpointer
    have hnotHeld : ¬held → s.followingHeld = false := fun hh => by
      rw [← Bool.not_eq_true, State.followingHeld_iff]
      exact hh
    have hfree : ¬held → s.focus.lock = false ∨ own → s.MovesFreely p := fun hh ho =>
      ⟨hl, hnotHeld hh, State.lockHolds_eq_false_iff.2 ho⟩
    rw [hkept]
    refine ⟨hpointer.1, hpointer.2, fun hown => State.holdingRect_own hown, fun w hown hw habove => State.holdingRect_window hown hw habove,
      fun hh => State.settle_held hl (State.followingHeld_iff.2 hh), fun hh hlock hown => ?_, fun hh ho =>
        ⟨fun hnone => State.settle_noScreen (hfree hh ho) hnone, fun p' hp' =>
          ⟨fun hsame => State.settle_sameScreen (hfree hh ho) hp' hsame,
            fun hother howner => State.settle_ownScreen (hfree hh ho) hp' hother howner, fun o hother howner hof => ?_⟩⟩⟩
    · have hlocks := State.lockHolds_eq_true_iff.2 ⟨hlock, hown⟩
      exact ⟨fun hthere hholds => State.settle_lockedAccepts hl (hnotHeld hh) hlocks hthere hholds,
        fun hno => State.settle_lockedClamps hl (hnotHeld hh) hlocks hno⟩
    · have hattempt : s.Attempts p p' o sx sy := ⟨hfree hh ho, hp', hother, howner, hof⟩
      intro opens beyond amount
      have hopens : s.crossingOpen o = true ↔ opens := State.crossingOpen_iff
      have hamount : s.attemptAmount p p' sx sy = amount := addPressure_amount ..
      clear_value amount
      subst hamount
      refine ⟨fun hclosed => State.settle_refused hattempt (Bool.eq_false_iff.2 (mt hopens.1 hclosed)),
        fun hopen hless => State.settle_resisted hattempt (hopens.2 hopen) hless, fun hopen hmore => ?_⟩
      have hcross := State.settle_crosses hattempt (hopens.2 hopen) hmore
      have hglides : s.settle (s.scaledStep e.port e.dx e.dy).1 (s.scaledStep e.port e.dx e.dy).2 = (s.place at' none, true) := by
        rw [hstep]
        exact hcross
      exact ⟨hcross, fun region r hregion hr hne =>
        State.pointerEvent_crosses (x := s.place at' none) hpin hd hglides hregion hr hne rfl⟩
  · intro s e b hpress hbutton t books
    refine ⟨fun u hpin hu => ?_, fun hpin hd hu => ?_, fun hpin hd => ⟨fun hs hu => ?_, fun hs => ?_⟩⟩
    · have hpinned : s.pointerEvent e = s.pinnedMotion e u := by rw [State.pointerEvent, show s.pin e.port = some u from hpin]
      show (s.pointerEvent e).keyStates[u].holds e.port (.button b) = true
      rw [hpinned]
      exact State.buttonsAndReport_books hpress (hu.imp_right .inl)
    · show (s.pointerEvent e).keyStates[s.focus.target].holds e.port (.button b) = true
      obtain ⟨q, hmotion⟩ := s.detachedMotion_reported e
      rw [State.pointerEvent_detached hpin hd, hmotion, State.reportedDetached,
        State.completeRelease_pressed (s := s.withDetached q) hpin hbutton]
      exact State.buttonsAndReport_books hpress (hu.imp_right .inl)
    · have heq : t = s.reported e := State.pointerEvent_pressed hpin hd hbutton
      clear_value t
      subst heq
      exact State.reported_books hpress rfl hs hu
    · have heq : t = s.reported e := State.pointerEvent_pressed hpin hd hbutton
      clear_value t
      subst heq
      exact State.reported_swallows hpress hs
  · intro s crossed region r hregion hr f recorded kept
    have hfollow := State.followRegion_of_region (crossed := crossed) hregion hr
    refine ⟨fun hf => hfollow.trans (if_pos hf), fun hf hc => hfollow.trans ((if_neg hf).trans (if_pos hc)),
      fun hf hc hk => hfollow.trans ((if_neg hf).trans ((if_neg (by rw [hc]; decide)).trans (if_pos (State.keeps_iff.2 hk)))),
      fun hf hc hk => hfollow.trans ((if_neg hf).trans ((if_neg (by rw [hc]; decide)).trans (if_neg (mt State.keeps_iff.1 hk))))⟩
  · intro s e dest p t wakes takes woken
    have htouches := s.accountButtons_touches e dest
    have hself := s.setHeld_self p e.buttons
    have hsame : ∀ b : Button, (s.setHeld p e.buttons).ports[p].suppressed (.button b) = s.ports[p].suppressed (.button b) := fun b =>
      s.setHeld_suppressed p p e.buttons (.button b)
    refine ⟨?_, fun q hq => (htouches.otherPorts q hq).trans (upd_get_ne _ _ _ _ hq), ?_, htouches.table, htouches.others,
      fun b => ?_⟩
    · have hbooks := s.accountButtons_booksOnly e dest
      rw [State.wokenFor_eq] at hbooks
      exact hbooks
    · rw [htouches.port, hself]
    · intro i sup sup' same
      refine ⟨fun hr hp => ?_, fun hr hp => ?_, fun hr hp => ?_⟩
      · have hneither : ¬(has e.releases b = true ∨ has e.presses b = true) := by rw [hr, hp]; decide
        exact ⟨(htouches.suppressed b hneither).trans (hsame b), htouches.holds b hneither⟩
      · obtain ⟨hun, habsorbed, hnowhere, htaken⟩ := State.accountButtons_releases hr hp dest s
        rw [hsame] at habsorbed hnowhere htaken
        exact ⟨hun, habsorbed, hnowhere, htaken⟩
      · obtain ⟨hswallowed, htaken, hrefused⟩ := State.accountButtons_pressesOnly hr hp dest s
        rw [hsame] at htaken
        exact ⟨hswallowed, fun u hu => ⟨htaken u hu, hrefused u hu⟩⟩
  · intro before s receiver t changed
    obtain ⟨htargets, hsubjects, hoverflow, hquiet⟩ := State.buttonReports_reports before receiver s
    refine ⟨State.buttonReports_delivers before receiver s, fun v => ?_, hsubjects, fun j => ?_, hquiet⟩
    · rw [htargets, State.buttonReport_targets, if_pos rfl]
      exact if_congr mem_changedTargets rfl rfl
    · rw [hoverflow]
      refine or_congr_right' fun hno => exists_congr fun v => ?_
      rw [mem_changedTargets, State.buttonReport_overflows, or_iff_right hno]
  · intro s e hpin hd gain settled there r booked others reported
    have hreported : s.reported e = reported := by
      rw [State.reported, State.arrived, State.scaledStep_eq]
      rfl
    rw [State.pointerEvent_following hpin hd, State.completeRelease_pins (s.reported_routes e), hreported]
  · intro s e px py hpin hd hat f gain d x y moved booked reported t
    have hreported : s.reportedDetached e (s.detachedPoint e px py) = reported := rfl
    have ht : t = reported.completeRelease e := by
      rw [← hreported, ← State.detachedMotion_eq hat]
      exact State.pointerEvent_detached hpin hd
    obtain ⟨hglide, htarget, hdetached⟩ := State.reportedDetached_kept (e := e) (q := s.detachedPoint e px py) hd
    rw [hreported, ← ht] at hglide htarget hdetached
    exact ⟨hglide, htarget, hdetached, ht.trans (State.completeRelease_pins (hreported ▸ s.reportedDetached_routes e _))⟩
end

section
/-! PROOFS. The deadlines of the hotkey detector (O17). -/

namespace Sys2Proof.Machine

/-- TAP_DEADLINE_EXPIRY executed (R70). -/
theorem exec_tapDeadlineExpiry {s : State} (hreset : s.resetAsserted = false) : exec .tapDeadlineExpiry s =
    .next (if s.detector.state = .tapWait then s.setDetector Detector.initial else s) :=
  running_eq s _ hreset

/-- LEADER_DEADLINE_EXPIRY executed (R71). -/
theorem exec_leaderDeadlineExpiry {s : State} (hreset : s.resetAsserted = false) : exec .leaderDeadlineExpiry s =
    .next (if s.detector.state = .leader then s.setDetector Detector.initial else s) :=
  running_eq s _ hreset

end Sys2Proof.Machine

open Sys2Proof Sys2Proof.Machine

/-- Settles O17: each expiry in the state its deadline runs in (R70, R71), and in any other. -/
theorem detectorDeadlinesReturnToIdle : Obligations.DetectorDeadlinesReturnToIdle := by
  intro s hreset
  rw [exec_tapDeadlineExpiry hreset, exec_leaderDeadlineExpiry hreset]
  refine ⟨fun htap => ?_, fun hother => ?_, fun hleader => ?_, fun hother => ?_⟩
  · rw [if_pos htap, State.setDetector, Detector.initial]
  · rw [if_neg hother]
  · rw [if_pos hleader, State.setDetector, Detector.initial]
  · rw [if_neg hother]
end

section
/-! PROOFS. The gain of a pointer event (O19). -/

namespace Sys2Proof.Machine

/-- A displacement of 16 bits has a magnitude of 32768 at most (R33). -/
theorem natAbs_toInt_le (v : BitVec 16) : v.toInt.natAbs ≤ 32768 := by
  have hlow := BitVec.le_toInt v
  have hhigh := BitVec.toInt_lt (x := v)
  omega

theorem State.gain_below {p : Port} {dx dy : Int} {s : State} (h : dx.natAbs + dy.natAbs < s.consoles[p].threshold) :
    s.gain p dx dy = s.consoles[p].gainSlow := by
  rw [State.gain, if_pos h]

theorem State.gain_reached {p : Port} {dx dy : Int} {s : State} (h : s.consoles[p].threshold ≤ dx.natAbs + dy.natAbs) :
    s.gain p dx dy = s.consoles[p].gainFast := by
  rw [State.gain, if_neg (Nat.not_lt.2 h)]

/-- The gain is one of the port's two, so it has their range (R36, R82). -/
theorem State.gain_range (p : Port) (dx dy : Int) {s : State} (h : s.TablesInRange) : 1 ≤ s.gain p dx dy ∧ s.gain p dx dy ≤ 64 := by
  obtain ⟨-, -, hconsoles, -⟩ := h
  obtain ⟨hslow, hslow', hfast, hfast', -⟩ := hconsoles p
  rcases Nat.lt_or_ge (dx.natAbs + dy.natAbs) s.consoles[p].threshold with hm | hm
  · rw [State.gain_below hm]
    exact ⟨Int.ofNat_le.2 hslow, Int.ofNat_le.2 hslow'⟩
  · rw [State.gain_reached hm]
    exact ⟨Int.ofNat_le.2 hfast, Int.ofNat_le.2 hfast'⟩

end Sys2Proof.Machine

open Sys2Proof Sys2Proof.Machine

/-- Settles O19: the two sides of the threshold (`State.gain_below`, `State.gain_reached`); 0 is reached by every event, and 1023 by none
below it. -/
theorem gainIsChosenByTheMagnitude : Obligations.GainIsChosenByTheMagnitude := by
  intro s p dx dy h m g
  obtain ⟨hone, hmax⟩ := State.gain_range p dx.toInt dy.toInt h
  refine ⟨Nat.add_le_add (natAbs_toInt_le dx) (natAbs_toInt_le dy), hone, hmax, State.gain_below, State.gain_reached, fun hzero => ?_,
    fun htop hm => ?_⟩
  · exact State.gain_reached (hzero ▸ Nat.zero_le _)
  · exact State.gain_below (htop ▸ hm)
end

section
/-! SUPPORT. What an offer does to a delivery queue and to a hold queue (R109 to R111, R153, R154). -/

namespace Sys2Proof.Machine

/-! ## Updates of one port -/

theorem State.modTarget_congr {t : Target} {f g : TargetPort → TargetPort} {s : State} (h : f s.targets[t] = g s.targets[t]) :
    s.modTarget t f = s.modTarget t g := by
  rw [State.modTarget, upd_congr h, State.modTarget]

/-- s with t's delivery queue replaced. -/
def State.withQueue (t : Target) (l : List Report) (s : State) : State := s.modTarget t fun p => { p with queue := l }

/-- s with t's resync flag set. -/
def State.withResync (t : Target) (s : State) : State := s.modTarget t fun p => { p with resync := true }

/-! ## The one entry that an update of a list reaches -/

theorem updFirst_append {α : Type} {c : α → Bool} {f : α → α} {pre post : List α} {x : α} (hpre : ∀ e ∈ pre, c e = false)
    (hx : c x = true) : updFirst c f (pre ++ x :: post) = pre ++ f x :: post := by
  induction pre with
  | nil => rw [List.nil_append, updFirst, if_pos hx, List.nil_append]
  | cons y ys ih =>
    obtain ⟨hy, hys⟩ := List.forall_mem_cons.1 hpre
    rw [List.cons_append, updFirst, hy, if_neg Bool.false_ne_true, ih hys, List.cons_append]

theorem updNewest_append {α : Type} {c : α → Bool} {f : α → α} {pre post : List α} {x : α} (hpost : ∀ e ∈ post, c e = false)
    (hx : c x = true) : updNewest c f (pre ++ x :: post) = pre ++ f x :: post := by
  have hreverse : (pre ++ x :: post).reverse = post.reverse ++ x :: pre.reverse := by simp
  rw [updNewest, hreverse, updFirst_append (fun e he => hpost e (List.mem_reverse.1 he)) hx]
  simp

/-! ## Forms by presentation mode (R107) -/

theorem deltaLimit_relative {m : Mode} (h : m ≠ .absolute) : deltaLimit m = if m = .boot then 127 else 32767 := by
  cases m with
  | boot => rfl
  | report => rfl
  | absolute => exact absurd rfl h

theorem clampDelta_eq (m : Mode) (d : Int) : clampDelta m d = max (-deltaLimit m) (min (deltaLimit m) d) :=
  clamp_eq _ _ _ (by cases m <;> decide)

theorem wheelSum_eq (m : Mode) (a b : Int) : wheelSum m a b = if m = .boot then 0 else max (-128) (min 127 (a + b)) := by
  rw [wheelSum, wheelIn, clamp_eq _ _ _ (by decide)]

/-- An absolute coordinate over a desktop of D pixels: 0 for the first, below 32768 for the last, and 32767 from D on (R94). -/
theorem absCoord_spec {v D : Nat} (hD : 1 ≤ D) : absCoord v D = min 32767 (v * 32768 / D) ∧ absCoord 0 D = 0 ∧
    (D - 1) * 32768 / D < 32768 ∧ (D ≤ v → absCoord v D = 32767) := by
  refine ⟨rfl, ?_, ?_, fun hv => ?_⟩
  · rw [absCoord, Nat.zero_mul, Nat.zero_div, Nat.min_zero]
  · rw [Nat.div_lt_iff_lt_mul hD]
    omega
  · have hquotient : 32768 ≤ v * 32768 / D := by
      rw [Nat.le_div_iff_mul_le hD, Nat.mul_comm]
      exact Nat.mul_le_mul_right _ hv
    exact Nat.min_eq_left (Nat.le_of_succ_le hquotient)

/-! ## Merging at the coalesce level (R110) -/

theorem mergeDelivery_rel (m : Mode) (dx dy w dx' dy' w' : Int) (b : ButtonSet) :
    mergeDelivery m (.rel dx dy w b false) (.rel dx' dy' w' b false) =
      some (.rel (clampDelta m (dx + dx')) (clampDelta m (dy + dy')) (wheelSum m w w') b false) := if_pos rfl

theorem mergeDelivery_abs (m : Mode) (ax ay ax' ay' : Nat) (w w' : Int) (b : ButtonSet) :
    mergeDelivery m (.abs ax ay w b) (.abs ax' ay' w' b) = some (.abs ax' ay' (wheelSum m w w') b) := if_pos rfl

/-- Two reports that merge: both T_REL without the sync mark or both T_ABS, with one button set. -/
inductive Report.Mergeable : Report → Report → Prop
  | rel (dx dy w dx' dy' w' : Int) (b : ButtonSet) : Report.Mergeable (.rel dx dy w b false) (.rel dx' dy' w' b false)
  | abs (ax ay ax' ay' : Nat) (w w' : Int) (b : ButtonSet) : Report.Mergeable (.abs ax ay w b) (.abs ax' ay' w' b)

theorem mergeDelivery_eq_none {m : Mode} {old r : Report} (h : ¬old.Mergeable r) : mergeDelivery m old r = none := by
  unfold mergeDelivery
  split
  · split
    · rename_i hb
      subst hb
      exact absurd (.rel ..) h
    · rfl
  · split
    · rename_i hb
      subst hb
      exact absurd (.abs ..) h
    · rfl
  · rfl

/-- At or above the coalesce level the newest report takes the offered one, where the two merge. -/
theorem TargetPort.merged_newest {coalesce : Nat} {pre : List Report} {old r n : Report} {p : TargetPort} (hlevel : coalesce ≤ p.queue.length)
    (hq : p.queue = pre ++ [old]) (hmerge : mergeDelivery p.mode old r = some n) : p.merged coalesce r = some n := by
  rw [TargetPort.merged, if_pos hlevel, hq, List.getLast?_concat, Option.bind_some, hmerge]

theorem TargetPort.merged_eq_none {coalesce : Nat} {r : Report} {p : TargetPort}
    (h : p.queue.length < coalesce ∨ ∀ old : Report, p.queue.getLast? = some old → ¬old.Mergeable r) : p.merged coalesce r = none := by
  rw [TargetPort.merged]
  rcases h with hbelow | hnever
  · rw [if_neg (Nat.not_le.2 hbelow)]
  · split
    · exact Option.bind_eq_none_iff.2 fun old hlast => mergeDelivery_eq_none (hnever old hlast)
    · rfl

/-! ## Offers to an ACTIVE target (R109 to R111) -/

/-- An offer that does not overflow changes the port as `offer` does, and ends its event. -/
theorem State.offerReport_placed {t : Target} {r : Report} {f : TargetPort → TargetPort} {s : State} (hp : s.targets[t].power = .active)
    (hover : s.targets[t].overflows s.desk.coalesce r = false) (hoffer : s.targets[t].offer s.desk.coalesce r = f s.targets[t]) :
    s.offerReport t r = (s.modTarget t f).portEnd t := by
  simp only [State.offerReport, hp, hover, Bool.false_eq_true, if_false]
  rw [State.modTarget_congr hoffer]

theorem State.offerReport_merges {t : Target} {pre : List Report} {old r n : Report} {s : State} (hp : s.targets[t].power = .active)
    (hlevel : s.desk.coalesce ≤ s.targets[t].queue.length) (hq : s.targets[t].queue = pre ++ [old])
    (hmerge : mergeDelivery s.targets[t].mode old r = some n) : s.offerReport t r = (s.withQueue t (pre ++ [n])).portEnd t := by
  have hmerged := TargetPort.merged_newest hlevel hq hmerge
  refine State.offerReport_placed hp ?_ ?_
  · rw [TargetPort.overflows, hmerged, Option.isNone_some, Bool.false_and]
  · rw [TargetPort.offer, hmerged, hq]
    dsimp only
    rw [List.dropLast_concat]

/-- An unmerged report finds a place (R109). -/
theorem State.offerReport_appends {t : Target} {r : Report} {s : State} (hp : s.targets[t].power = .active)
    (hmerged : s.targets[t].merged s.desk.coalesce r = none) (hroom : s.targets[t].queue.length < 32) :
    s.offerReport t r = (s.withQueue t (s.targets[t].queue ++ [r])).portEnd t := by
  have hfull : s.targets[t].queueFull = false := decide_eq_false (Nat.not_le.2 hroom)
  refine State.offerReport_placed hp ?_ ?_
  · rw [TargetPort.overflows, hfull, Bool.and_false]
  · rw [TargetPort.offer, hmerged]
    dsimp only
    rw [hfull, if_neg Bool.false_ne_true]

/-- An unmerged report finds none (R111). -/
theorem State.offerReport_overflows {t : Target} {r : Report} {s : State} (hp : s.targets[t].power = .active)
    (hmerged : s.targets[t].merged s.desk.coalesce r = none) (hroom : 32 ≤ s.targets[t].queue.length) :
    s.offerReport t r = ((s.withResync t).raise .deliveryOverflow (eightSubject t)).portEnd t := by
  have hfull : s.targets[t].queueFull = true := decide_eq_true hroom
  have hover : s.targets[t].overflows s.desk.coalesce r = true := by
    rw [TargetPort.overflows, hmerged, hfull, Option.isNone_none, Bool.and_self]
  have hoffer : s.modTarget t (TargetPort.offer s.desk.coalesce r) = s.withResync t := State.modTarget_congr <| by
    rw [TargetPort.offer, hmerged]
    dsimp only
    rw [hfull, if_pos rfl]
  simp only [State.offerReport, hp, hover, if_true]
  rw [hoffer]

/-! ## Offers to a WAKING target (R153, R154) -/

theorem State.offerReport_held {t : Target} {r : Report} {p : TargetPort} {s : State} (hp : s.targets[t].power = .waking)
    (h : s.targets[t].offerHold r = p) : s.offerReport t r = s.modTarget t fun _ => p := by
  simp only [State.offerReport, hp]
  exact State.modTarget_congr h

theorem State.offerReport_unoffered {t : Target} {r : Report} {s : State}
    (hp : s.targets[t].power = .absent ∨ s.targets[t].power = .suspended) : s.offerReport t r = s := by
  rcases hp with hp | hp <;> simp only [State.offerReport, hp]

theorem TargetPort.holds_no_pointer {p : TargetPort} (h : ∀ e ∈ p.hold, e.isPointer = false) : p.hold.any Report.isPointer = false :=
  List.any_eq_false.2 fun e he => Bool.not_eq_true _ ▸ h e he

theorem TargetPort.offerHold_merges {pre post : List Report} {old r : Report} {p : TargetPort} (hq : p.hold = pre ++ old :: post)
    (hpre : ∀ e ∈ pre, e.isPointer = false) (hkind : old.isPointer = true) (hr : r.isPointer = true) :
    p.offerHold r = { p with hold := pre ++ mergeHold p.mode old r :: post } := by
  have hany : p.hold.any Report.isPointer = true :=
    List.any_eq_true.2 ⟨old, hq ▸ List.mem_append_right pre (List.mem_cons_self ..), hkind⟩
  rw [TargetPort.offerHold, if_pos hr, if_pos hany, hq, updFirst_append hpre hkind]

theorem TargetPort.offerHold_appends {r : Report} {p : TargetPort} (hroom : p.hold.length < 16)
    (h : r.isPointer = false ∨ ∀ e ∈ p.hold, e.isPointer = false) : p.offerHold r = { p with hold := p.hold ++ [r] } := by
  have hfull : ¬p.holdFull = true := Bool.eq_false_iff.1 (decide_eq_false (Nat.not_le.2 hroom))
  rw [TargetPort.offerHold, if_neg hfull, if_neg hfull]
  rcases h with hkeys | hnone
  · rw [hkeys, if_neg Bool.false_ne_true]
  · rw [TargetPort.holds_no_pointer hnone, if_neg Bool.false_ne_true, ite_self]

/-- A pointer report that a full hold queue cannot merge is discarded (R154). -/
theorem TargetPort.offerHold_discards {r : Report} {p : TargetPort} (hroom : 16 ≤ p.hold.length) (hr : r.isPointer = true)
    (hnone : ∀ e ∈ p.hold, e.isPointer = false) : p.offerHold r = { p with resync := true } := by
  have hfull : p.holdFull = true := decide_eq_true hroom
  rw [TargetPort.offerHold, if_pos hr, TargetPort.holds_no_pointer hnone, if_neg Bool.false_ne_true, if_pos hfull]

/-- A T_KEYS offered to a full hold queue takes the place of the newest T_KEYS (R153). -/
theorem TargetPort.offerHold_overwrites {pre post : List Report} {old r : Report} {p : TargetPort} (hroom : 16 ≤ p.hold.length)
    (hr : r.isPointer = false) (hq : p.hold = pre ++ old :: post) (hkind : old.isPointer = false) (hpost : ∀ e ∈ post, e.isPointer = true) :
    p.offerHold r = { p with hold := pre ++ r :: post } := by
  have hfull : p.holdFull = true := decide_eq_true hroom
  have hnewest : updNewest (fun h => !h.isPointer) (fun _ => r) (pre ++ old :: post) = pre ++ r :: post :=
    updNewest_append (fun e he => by rw [hpost e he, Bool.not_true]) (by rw [hkind, Bool.not_false])
  rw [TargetPort.offerHold, hr, if_neg Bool.false_ne_true, if_pos hfull, hq, hnewest]

end Sys2Proof.Machine
end

section
/-! SUPPORT. The pointer report of each mode (R93 to R98, R117) and the translation of a desk point (R92). -/

namespace Sys2Proof.Machine

/-! ## Zero-motion reports (R43, R94, R96) -/

theorem TargetPort.stillReport_absolute {z : DeskSize} {w : Int} {b : ButtonSet} {p : TargetPort} (h : p.mode = .absolute) :
    p.stillReport z w b = .abs (absCoord p.lx z.dw) (absCoord p.ly z.dh) w b := by
  simp only [TargetPort.stillReport, h]

theorem TargetPort.stillReport_relative {z : DeskSize} {w : Int} {b : ButtonSet} {p : TargetPort} (h : p.mode ≠ .absolute) :
    p.stillReport z w b = .rel 0 0 (wheelIn p.mode w) (buttonsIn p.mode b) false := by
  cases hm : p.mode with
  | boot => simp only [TargetPort.stillReport, hm]
  | report => simp only [TargetPort.stillReport, hm]
  | absolute => exact absurd hm h

theorem wheelIn_zero (m : Mode) : wheelIn m 0 = 0 := ite_self 0

theorem isRelative_iff {m : Mode} : isRelative m = true ↔ m ≠ .absolute := by cases m <;> decide

theorem State.buttonReport_absolute {t : Target} {s : State} (h : s.targets[t].mode = .absolute) : s.buttonReport t =
    s.offerReport t (.abs (absCoord s.targets[t].lx (s.desktop t).dw) (absCoord s.targets[t].ly (s.desktop t).dh) 0 (s.buttonSet t)) := by
  rw [State.buttonReport, TargetPort.stillReport_absolute h]

theorem State.buttonReport_relative {t : Target} {s : State} (h : s.targets[t].mode ≠ .absolute) :
    s.buttonReport t = s.offerReport t (.rel 0 0 0 (buttonsIn s.targets[t].mode (s.buttonSet t)) false) := by
  rw [State.buttonReport, TargetPort.stillReport_relative h, wheelIn_zero]

theorem State.setLast_port (t : Target) (q : Nat × Nat) (s : State) :
    (s.setLast t q).targets[t] = { s.targets[t] with lx := q.1, ly := q.2 } := upd_get ..

theorem State.setLast_mode (t : Target) (q : Nat × Nat) (s : State) : (s.setLast t q).targets[t].mode = s.targets[t].mode := by
  rw [State.setLast_port]

/-! ## Entry-sync requests (R117) -/

theorem State.requestSync_mode (t : Target) (s : State) : (s.requestSync t).targets[t].mode = s.targets[t].mode := by
  obtain ⟨-, -, hkeeps⟩ := s.requestSync_focusOnly t
  obtain ⟨-, hmode, -⟩ := hkeeps t
  exact hmode

/-- The record a relative target has after an entry-sync request, by its power state. -/
def TargetPort.requestedSync (steps : Nat) (p : TargetPort) : SyncRecord :=
  match p.power with
  | .active => { p.sync with phase := .home, homeLeft := steps }
  | .waking => { p.sync with phase := .pending }
  | .suspended => { p.sync with phase := .pending }
  | .absent => p.sync

theorem TargetPort.requestSync_relative {z : DeskSize} {p : TargetPort} (h : p.mode ≠ .absolute) :
    p.requestSync z = { p with sync := p.requestedSync (homeSteps p.mode z) } := by
  rw [TargetPort.requestSync, isRelative_iff.2 h]
  obtain ⟨_, power⟩ := p
  cases power with
  | active => rfl
  | waking => rfl
  | suspended => rfl
  | absent => rfl

/-! ## The report of a point, by mode and sync record (R94 to R98) -/

theorem State.pointerReport_absolute {t : Target} {q : Nat × Nat} {wheel : Int} {changed entry : Bool} {s : State}
    (h : s.targets[t].mode = .absolute) : s.pointerReport t q wheel changed entry =
      (s.setLast t q).offerReport t (.abs (absCoord q.1 (s.desktop t).dw) (absCoord q.2 (s.desktop t).dh) wheel (s.buttonSet t)) := by
  have hrel : ¬isRelative s.targets[t].mode = true := fun hr => isRelative_iff.1 hr h
  rw [State.pointerReport, if_neg hrel, State.stillReport, TargetPort.stillReport_absolute ((s.setLast_mode t q).trans h),
    State.setLast_port]
  rfl

section
variable {t : Target} {q : Nat × Nat} {wheel : Int} {changed entry : Bool} {s : State}

/-- Of a CLEARED record, and at every entry, the report is an entry-sync request (R97). -/
theorem State.pointerReport_requests (hmode : s.targets[t].mode ≠ .absolute) (h : entry = true ∨ s.targets[t].sync.phase = .cleared) :
    s.pointerReport t q wheel changed entry =
      if changed then ((s.setLast t q).requestSync t).offerReport t (.rel 0 0 0 (buttonsIn s.targets[t].mode (s.buttonSet t)) false)
      else (s.setLast t q).requestSync t := by
  have hasks : (entry || decide (s.targets[t].sync.phase = .cleared)) = true := by
    rw [Bool.or_eq_true, decide_eq_true_eq]
    exact h
  have hrequested : ((s.setLast t q).requestSync t).targets[t].mode = s.targets[t].mode :=
    (State.requestSync_mode t _).trans (s.setLast_mode t q)
  rw [State.pointerReport, if_pos (isRelative_iff.2 hmode), if_pos hasks]
  dsimp only
  rw [State.buttonReport_relative (hrequested ▸ hmode), hrequested]
  rfl

theorem State.pointerReport_complete (hmode : s.targets[t].mode ≠ .absolute) (hentry : entry = false)
    (h : s.targets[t].sync.phase = .complete) :
    s.pointerReport t q wheel changed entry = (s.setLast t q).offerReport t (s.deltaReport t q wheel) := by
  simp only [State.pointerReport, isRelative_iff.2 hmode, hentry, h, reduceCtorEq, decide_false, Bool.or_self, Bool.false_eq_true, if_true,
    if_false]

/-- While a sync is in progress the report carries no motion (R98). -/
theorem State.pointerReport_inProgress (hmode : s.targets[t].mode ≠ .absolute) (hentry : entry = false)
    (h : s.targets[t].sync.phase.inProgress = true) : s.pointerReport t q wheel changed entry =
      if changed = true ∨ wheel ≠ 0 then
        (s.setLast t q).offerReport t (.rel 0 0 (wheelIn s.targets[t].mode wheel) (buttonsIn s.targets[t].mode (s.buttonSet t)) false)
      else s.setLast t q := by
  have hcleared : s.targets[t].sync.phase ≠ .cleared := fun hp => by rw [hp] at h; exact absurd h (by decide)
  have hcomplete : s.targets[t].sync.phase ≠ .complete := fun hp => by rw [hp] at h; exact absurd h (by decide)
  have hstill : (s.setLast t q).stillReport t wheel =
      .rel 0 0 (wheelIn s.targets[t].mode wheel) (buttonsIn s.targets[t].mode (s.buttonSet t)) false := by
    rw [State.stillReport, TargetPort.stillReport_relative (by rwa [State.setLast_mode]), State.setLast_mode]
    rfl
  simp only [State.pointerReport, isRelative_iff.2 hmode, hentry, hcleared, hcomplete, hstill, decide_false, Bool.or_self,
    Bool.false_eq_true, if_true, if_false, Bool.or_eq_true, bne_iff_ne]

end

/-! ## Translation (R92) -/

theorem topWindow_picks {c : Window → Bool} {w : Window} (h : topWindow c = some w) : c w = true := List.find?_some h

/-- A window that is the region of a point contains it (R8). -/
theorem State.regionAt_window {x y : Nat} {w : Window} {s : State} (h : s.regionAt x y = some (.window w)) : s.windowAt x y w = true := by
  obtain ⟨p, -, hregion⟩ := Option.map_eq_some_iff.1 h
  cases htop : topWindow fun w => s.active.windows[w].display = p.display && s.windowAt x y w with
  | none =>
    rw [htop] at hregion
    cases hregion
  | some v =>
    rw [htop] at hregion
    cases hregion
    exact (Bool.and_eq_true_iff.1 (topWindow_picks htop)).2

theorem State.windowOfAt_iff {t : Target} {x y : Nat} {w : Window} {s : State} : s.windowOfAt t x y w = true ↔
    (s.active.windows[w].interactive && s.active.windowOwner w = some t) = true ∧ s.windowAt x y w = true :=
  Bool.and_eq_true_iff

theorem State.translate_onTop {t : Target} {x y : Nat} {w : Window} {s : State} (h : s.regionAt x y = some (.window w))
    (hmine : s.windowOfAt t x y w = true) : s.translate t x y = s.translateWindow w x y := by
  obtain ⟨howned, -⟩ := State.windowOfAt_iff.1 hmine
  rw [State.translate, h]
  dsimp only
  rw [if_pos howned]

/-- Where no window of the target is on top, its screen at the point comes first, then its highest window there. -/
theorem State.translate_notOnTop {t : Target} {x y : Nat} {pl : Place} {s : State} (hl : s.active.lookup x y = some pl)
    (hnot : ∀ w : Window, s.regionAt x y = some (.window w) → ¬s.windowOfAt t x y w = true) : s.translate t x y =
      if s.active.displayOwner pl.display = some t then s.translateBase pl x y
      else (topWindow fun w => s.windowOfAt t x y w).bind fun w => s.translateWindow w x y := by
  have hregion : ∃ r : Region, s.regionAt x y = some r := by rw [State.regionAt, hl]; exact ⟨_, rfl⟩
  obtain ⟨r, hr⟩ := hregion
  rw [State.translate, hr]
  dsimp only
  split
  · rename_i w htop
    cases r with
    | screen d => cases htop
    | window v =>
      obtain ⟨howned, -⟩ := Option.ite_none_right_eq_some.1 htop
      exact absurd (State.windowOfAt_iff.2 ⟨howned, State.regionAt_window hr⟩) (hnot v hr)
  · rw [hl, Option.filter_some]
    by_cases howner : s.active.displayOwner pl.display = some t
    · rw [if_pos (decide_eq_true howner), if_pos howner]
    · rw [if_neg (mt of_decide_eq_true howner), if_neg howner]
      cases topWindow fun w => s.windowOfAt t x y w with
      | none => rfl
      | some w => rfl

theorem State.translateWindow_of_rect {x y : Nat} {w : Window} {r : Rect} {s : State} (h : s.windowOnDesk w = some r) :
    let win := s.active.windows[w]
    let g := s.heads[win.source].measured.getD ⟨0, 0⟩
    s.translateWindow w x y = some (s.active.heads[win.source].originX + min ((x - r.x) * 2 ^ win.shift) (g.w - 1),
      s.active.heads[win.source].originY + min ((y - r.y) * 2 ^ win.shift) (g.h - 1)) := by
  rw [State.translateWindow, h]
  rfl

theorem State.baseGeometry_eq (d : Display) (h : Head) (s : State) : s.baseGeometry d h =
    s.heads[h].measured.getD
      ⟨s.active.displays[d].width * 2 ^ s.active.displays[d].shift, s.active.displays[d].height * 2 ^ s.active.displays[d].shift⟩ := by
  unfold State.baseGeometry
  cases s.heads[h].measured with
  | none => rfl
  | some g => rfl

theorem State.translateBase_of_head {x y : Nat} {pl : Place} {h : Head} {s : State} (hbase : s.active.displays[pl.display].base = some h) :
    let disp := s.active.displays[pl.display]
    let scr := s.active.screen pl
    let g := s.heads[h].measured.getD ⟨disp.width * 2 ^ disp.shift, disp.height * 2 ^ disp.shift⟩
    s.translateBase pl x y = some (s.active.heads[h].originX + min ((x - scr.x) * 2 ^ disp.shift) (g.w - 1),
      s.active.heads[h].originY + min ((y - scr.y) * 2 ^ disp.shift) (g.h - 1)) := by
  rw [State.translateBase, hbase]
  dsimp only [Option.map_some]
  rw [State.baseGeometry_eq]

end Sys2Proof.Machine
end

section
/-! PROOFS. Pointer reports in every mode, the translation, and the offers to each queue (O21). -/

open Sys2Proof Sys2Proof.Machine

/-- Settles O21, part by part: the report of a point in ABSOLUTE mode (`State.pointerReport_absolute`) and its coordinates, in a relative mode
by the sync record (`State.pointerReport_requests` and its siblings), the three regions of R92 (`State.translate_onTop`,
`State.translate_notOnTop`), and the offers to an ACTIVE target, to a WAKING one and to one that takes none. -/
theorem absoluteReportsScaleTheTargetPoint : Obligations.AbsoluteReportsScaleTheTargetPoint := by
  refine ⟨fun s t q wheel changed entry hmode => ⟨State.pointerReport_absolute hmode, State.buttonReport_absolute hmode⟩,
    fun v D hD => absCoord_spec hD, ?_, ?_, ?_, ?_, fun s t r hp => State.offerReport_unoffered hp⟩
  · intro s t q wheel changed entry hmode p boot L d b w moved requested
    have hL : deltaLimit p.mode = L := deltaLimit_relative hmode
    have hrequested : (s.setLast t q).requestSync t = requested := by
      refine congrArg (State.portEnd t) (State.modTarget_congr ?_)
      rw [TargetPort.requestSync_relative (by rwa [State.setLast_mode]), homeSteps, State.setLast_mode, hL]
      rfl
    refine ⟨fun h => ?_, fun hentry hcomplete => ?_, fun hentry hprogress => ?_, State.buttonReport_relative hmode⟩
    · rw [← hrequested]
      exact State.pointerReport_requests hmode h
    · rw [← hL, ← clampDelta_eq, ← clampDelta_eq]
      exact State.pointerReport_complete hmode hentry hcomplete
    · have hin : p.sync.phase.inProgress = true := by
        rcases hprogress with h | h | h <;> rw [h] <;> rfl
      have hreport := State.pointerReport_inProgress (q := q) (wheel := wheel) (changed := changed) hmode hentry hin
      exact ⟨fun h => hreport.trans (if_pos h), fun hsame hwheel => hreport.trans (if_neg (by simp [hsame, hwheel]))⟩
  · intro s t x y pl hl mine onTop owns disp scr throughWindow
    have hnot : ¬onTop → ∀ w : Window, s.regionAt x y = some (.window w) → ¬mine w := fun h w hw hm => h ⟨w, hw, hm⟩
    refine ⟨fun w hregion hmine r hr => ?_, fun htop howns h hbase => ?_, fun htop howns w hmine habove r hr => ?_⟩
    · rw [State.translate_onTop hregion hmine]
      exact State.translateWindow_of_rect hr
    · rw [State.translate_notOnTop hl (hnot htop), if_pos howns]
      exact State.translateBase_of_head hbase
    · rw [State.translate_notOnTop hl (hnot htop), if_neg howns, topWindow_eq_some hmine fun v hv => Bool.eq_false_iff.2 (habove v hv)]
      exact State.translateWindow_of_rect hr
  · intro s t r hp p n L sum queued merges
    refine ⟨fun hlevel pre => ⟨fun dx dy w dx' dy' w' b hq hr => ?_, fun ax ay ax' ay' w w' b hq hr => ?_⟩, fun hno => ?_⟩
    · subst hr
      rw [State.offerReport_merges hp hlevel hq (mergeDelivery_rel ..), clampDelta_eq, clampDelta_eq, wheelSum_eq]
      rfl
    · subst hr
      rw [State.offerReport_merges hp hlevel hq (mergeDelivery_abs ..), wheelSum_eq]
      rfl
    · have hmerges : ∀ old : Report, old.Mergeable r → merges old := fun old h => by
        cases h with
        | rel => exact rfl
        | abs => exact rfl
      have hmerged : p.merged s.desk.coalesce r = none :=
        TargetPort.merged_eq_none (hno.imp_right fun h old hlast => mt (hmerges old) (h old hlast))
      exact ⟨State.offerReport_appends hp hmerged, State.offerReport_overflows hp hmerged⟩
  · intro s t r hp p n L sum held noneIn
    refine ⟨fun pre post hpre => ⟨fun dx dy w dx' dy' w' b b' hq hr => ?_, fun ax ay ax' ay' w w' b b' hq hr => ?_⟩,
      fun hroom h => State.offerReport_held hp (TargetPort.offerHold_appends hroom h),
      fun hroom hr hnone => State.offerReport_held hp (TargetPort.offerHold_discards hroom hr hnone),
      fun pre post mods list hroom hr hq hpost => State.offerReport_held hp (TargetPort.offerHold_overwrites hroom hr hq rfl hpost)⟩
    · subst hr
      rw [State.offerReport_held hp (TargetPort.offerHold_merges hq hpre rfl rfl), mergeHold, clampDelta_eq, clampDelta_eq, wheelSum_eq]
      rfl
    · subst hr
      rw [State.offerReport_held hp (TargetPort.offerHold_merges hq hpre rfl rfl), mergeHold, wheelSum_eq]
      rfl
end

section
/-! SUPPORT. The end of a port's event (R112, R114, R118, R119): each of its three steps, and the whole. -/

namespace Sys2Proof.Machine

/-! ## The next sync report (R118, R119) -/

theorem TargetPort.syncDue_iff {p : TargetPort} :
    p.syncDue = true ↔ p.power = .active ∧ p.queue.any Report.isSync = false ∧ p.queue.length < 32 := by
  have hroom : p.queueFull = false ↔ p.queue.length < 32 := decide_eq_false_iff_not.trans Nat.not_le
  simp only [TargetPort.syncDue, Bool.and_eq_true, decide_eq_true_eq, Bool.not_eq_true', hroom, and_assoc]

theorem TargetPort.homeDone_of_not_home {p : TargetPort} (h : p.sync.phase ≠ .home) : p.homeDone = p := if_neg fun hdone => h hdone.1

theorem TargetPort.homeDone_of_steps_left {p : TargetPort} (h : 0 < p.sync.homeLeft) : p.homeDone = p :=
  if_neg fun hdone => Nat.ne_of_gt h hdone.2.1

theorem TargetPort.homeDone_of_marked {p : TargetPort} (h : p.queue.any Report.isSync = true) : p.homeDone = p :=
  if_neg fun hdone => hdone.2.2 h

/-- The record APPROACH from (0, 0), once the last home step has left (R118). -/
def TargetPort.approaching (p : TargetPort) : TargetPort := { p with sync := { p.sync with phase := .approach, mx := 0, my := 0 } }

theorem TargetPort.homeDone_of_left {p : TargetPort} (hphase : p.sync.phase = .home) (hleft : p.sync.homeLeft = 0)
    (hmark : p.queue.any Report.isSync = false) : p.homeDone = p.approaching :=
  if_pos ⟨hphase, hleft, Bool.eq_false_iff.1 hmark⟩

/-- What a home step does to the port (R118). -/
def TargetPort.homeStep (b : ButtonSet) (p : TargetPort) : TargetPort :=
  { p with
    queue := p.queue ++ [.rel (-deltaLimit p.mode) (-deltaLimit p.mode) 0 (buttonsIn p.mode b) true]
    sync := { p.sync with homeLeft := p.sync.homeLeft - 1 } }

theorem TargetPort.nextSync_home {b : ButtonSet} {p : TargetPort} (h : p.sync.phase = .home) : p.nextSync b = p.homeStep b := by
  simp only [TargetPort.nextSync, TargetPort.homeStep, h]

/-- What an approach step from (mx, my) does to the port: COMPLETE at the last target point, a step towards it elsewhere (R119). -/
def TargetPort.approachStep (b : ButtonSet) (mx my : Nat) (p : TargetPort) : TargetPort :=
  let L := deltaLimit p.mode
  let dx := max (-L) (min L ((p.lx : Int) - mx))
  let dy := max (-L) (min L ((p.ly : Int) - my))
  if mx = p.lx ∧ my = p.ly then { p with sync := { p.sync with phase := .complete, mx := mx, my := my } }
  else { p with queue := p.queue ++ [.rel dx dy 0 (buttonsIn p.mode b) true]
                sync := { p.sync with phase := .approach, mx := (mx + dx).toNat, my := (my + dy).toNat } }

theorem TargetPort.nextSync_approach {b : ButtonSet} {p : TargetPort} (h : p.sync.phase = .approach) :
    p.nextSync b = p.approachStep b p.sync.mx p.sync.my := by
  have hL : -deltaLimit p.mode ≤ deltaLimit p.mode := by cases p.mode <;> decide
  simp only [TargetPort.nextSync, TargetPort.approachStep, h, clamp_eq _ _ _ hL]

theorem TargetPort.nextSync_idle {b : ButtonSet} {p : TargetPort} (hhome : p.sync.phase ≠ .home) (happroach : p.sync.phase ≠ .approach) :
    p.nextSync b = p := by
  cases hphase : p.sync.phase with
  | home => exact absurd hphase hhome
  | approach => exact absurd hphase happroach
  | cleared | pending | complete => simp only [TargetPort.nextSync, hphase]

section
variable {b : ButtonSet} {p : TargetPort}

theorem TargetPort.syncStep_of_homeDone (h : p.homeDone = p) : p.syncStep b = if p.syncDue then p.nextSync b else p := by
  rw [TargetPort.syncStep, h]

theorem TargetPort.syncStep_home (hphase : p.sync.phase = .home) (hleft : 0 < p.sync.homeLeft) :
    p.syncStep b = if p.syncDue then p.homeStep b else p := by
  rw [TargetPort.syncStep_of_homeDone (TargetPort.homeDone_of_steps_left hleft), TargetPort.nextSync_home hphase]

/-- While the last home step waits in the queue, nothing follows it. -/
theorem TargetPort.syncStep_marked (hmark : p.queue.any Report.isSync = true) : p.syncStep b = p := by
  have hdue : ¬p.syncDue = true := fun hdue => by
    obtain ⟨-, hunmarked, -⟩ := TargetPort.syncDue_iff.1 hdue
    rw [hmark] at hunmarked
    cases hunmarked
  rw [TargetPort.syncStep_of_homeDone (TargetPort.homeDone_of_marked hmark), if_neg hdue]

theorem TargetPort.syncStep_left (hphase : p.sync.phase = .home) (hleft : p.sync.homeLeft = 0)
    (hmark : p.queue.any Report.isSync = false) : p.syncStep b = if p.syncDue then p.approachStep b 0 0 else p.approaching := by
  rw [TargetPort.syncStep, TargetPort.homeDone_of_left hphase hleft hmark, TargetPort.nextSync_approach rfl]
  rfl

theorem TargetPort.syncStep_approach (hphase : p.sync.phase = .approach) :
    p.syncStep b = if p.syncDue then p.approachStep b p.sync.mx p.sync.my else p := by
  rw [TargetPort.syncStep_of_homeDone (TargetPort.homeDone_of_not_home (by rw [hphase]; decide)), TargetPort.nextSync_approach hphase]

/-- No sync in HOME or APPROACH, no sync report. -/
theorem TargetPort.syncStep_idle (hhome : p.sync.phase ≠ .home) (happroach : p.sync.phase ≠ .approach) : p.syncStep b = p := by
  rw [TargetPort.syncStep_of_homeDone (TargetPort.homeDone_of_not_home hhome), TargetPort.nextSync_idle hhome happroach, ite_self]

theorem TargetPort.syncStep_inactive (hpower : p.power ≠ .active) (hhome : p.sync.phase ≠ .home) : p.syncStep b = p := by
  rw [TargetPort.syncStep_of_homeDone (TargetPort.homeDone_of_not_home hhome), if_neg fun hdue => hpower (TargetPort.syncDue_iff.1 hdue).1]

/-- The sync at the end of an event whole: a home step, the approach after the last home step, or an approach step, each where one is due. -/
theorem TargetPort.syncStep_eq {due : Prop} [Decidable due] (hdue : p.syncDue = true ↔ due) : p.syncStep b =
    if p.sync.phase = .home ∧ 0 < p.sync.homeLeft ∧ due then p.homeStep b
    else if p.sync.phase = .home ∧ p.sync.homeLeft = 0 ∧ due then p.approachStep b 0 0
    else if p.sync.phase = .home ∧ p.sync.homeLeft = 0 ∧ p.queue.any Report.isSync = false then p.approaching
    else if p.sync.phase = .approach ∧ due then p.approachStep b p.sync.mx p.sync.my
    else p := by
  cases hphase : p.sync.phase with
  | home =>
    rcases Nat.eq_zero_or_pos p.sync.homeLeft with hleft | hleft
    · cases hmark : p.queue.any Report.isSync with
      | true =>
        have hwait : ¬due := fun h => by
          obtain ⟨-, hunmarked, -⟩ := TargetPort.syncDue_iff.1 (hdue.2 h)
          exact Bool.false_ne_true (hunmarked.symm.trans hmark)
        simp [TargetPort.syncStep_marked hmark, hwait]
      | false => simp [TargetPort.syncStep_left hphase hleft hmark, hleft, hdue]
    · simp [TargetPort.syncStep_home hphase hleft, hleft, Nat.ne_of_gt hleft, hdue]
  | approach => simp [TargetPort.syncStep_approach hphase, hdue]
  | cleared | pending | complete =>
    have hidle : p.syncStep b = p := TargetPort.syncStep_idle (by rw [hphase]; decide) (by rw [hphase]; decide)
    simp [hidle]

end

/-! ## The resync (R112) -/

section
variable {v : ModSet × List Key} {b : ButtonSet} {z : DeskSize} {p : TargetPort}

theorem TargetPort.queueFull_iff : p.queueFull = true ↔ 32 ≤ p.queue.length := decide_eq_true_iff

/-- The resync whole: nothing without a request or a place, the view alone where it takes the last place. -/
theorem TargetPort.resyncStep_eq {due : Prop} [Decidable due] (hdue : p.power = .active ∧ p.resync = true ∧ p.queue.length < 32 ↔ due) :
    p.resyncStep v b z = if due then
      if (restateKeys v.1 v.2 p.queue).length < 32 then
        { p with queue := restateKeys v.1 v.2 p.queue ++ [p.stillReport z 0 b], resync := false }
      else { p with queue := restateKeys v.1 v.2 p.queue }
    else p := by
  unfold TargetPort.resyncStep
  simp only [TargetPort.queueFull_iff, Nat.not_le, hdue]
  rfl

theorem TargetPort.resyncStep_unasked (h : p.resync = false) : p.resyncStep v b z = p := by
  rw [TargetPort.resyncStep_eq Iff.rfl, if_neg fun hdue => Bool.false_ne_true (h.symm.trans hdue.2.1)]

theorem TargetPort.resyncStep_inactive (h : p.power ≠ .active) : p.resyncStep v b z = p := by
  rw [TargetPort.resyncStep_eq Iff.rfl, if_neg fun hdue => h hdue.1]

theorem restateKeys_length_le (mods : ModSet) (list : List Key) (queue : List Report) :
    (restateKeys mods list queue).length ≤ queue.length + 1 := by
  unfold restateKeys
  split
  · omega
  · rw [List.length_append, List.length_singleton]

theorem prefix_restateKeys (mods : ModSet) (list : List Key) (queue : List Report) : queue <+: restateKeys mods list queue := by
  unfold restateKeys
  split
  · exact List.prefix_rfl
  · exact List.prefix_append ..

theorem restateKeys_concat_rel (mods : ModSet) (list : List Key) (queue : List Report) (dx dy w : Int) (b : ButtonSet) (sync : Bool) :
    restateKeys mods list (queue ++ [.rel dx dy w b sync]) = queue ++ [.rel dx dy w b sync, .keys mods list] := by
  rw [restateKeys, List.getLast?_concat, if_neg (by simp), List.append_assoc]
  rfl

/-- With two places free both reports of a resync are placed. -/
theorem TargetPort.resyncStep_placed (hpower : p.power = .active) (hresync : p.resync = true) (hroom : p.queue.length + 2 ≤ 32) :
    p.resyncStep v b z = { p with queue := restateKeys v.1 v.2 p.queue ++ [p.stillReport z 0 b], resync := false } := by
  have hview := restateKeys_length_le v.1 v.2 p.queue
  rw [TargetPort.resyncStep_eq Iff.rfl, if_pos ⟨hpower, hresync, by omega⟩, if_pos (by omega)]

end

/-! ## The stall timer (R114) -/

theorem TargetPort.stallStep_eq {n c : Nat} {o : Option Nat} {p : TargetPort} (hcredit : p.credit = c) (hstall : p.stall = o) :
    p.stallStep n = { p with stall := if p.queue = [] then none else if c = 0 ∧ o = none then some n else o } := by
  subst hcredit hstall
  unfold TargetPort.stallStep
  simp only [List.isEmpty_iff, Option.isNone_iff_eq_none]
  split
  · rfl
  · split <;> rfl

theorem TargetPort.stallStep_waiting {n : Nat} {p : TargetPort} (h : p.queue ≠ []) (hstall : p.stall = none) :
    p.stallStep n = { p with stall := if p.credit = 0 then some n else none } := by
  rw [TargetPort.stallStep_eq rfl hstall, if_neg h]
  simp only [and_true]

theorem TargetPort.stallStep_empty {n : Nat} {p : TargetPort} (h : p.queue = []) : p.stallStep n = { p with stall := none } := by
  rw [TargetPort.stallStep_eq rfl rfl, if_pos h]

/-! ## What a sync step and a resync leave as it was -/

/-- Reports are appended, and nothing but the queue and the sync record changes. -/
structure TargetPort.Extends (p q : TargetPort) : Prop where
  queue : p.queue <+: q.queue
  rest  : q = { p with queue := q.queue, sync := q.sync }

theorem TargetPort.Extends.refl (p : TargetPort) : p.Extends p := ⟨List.prefix_rfl, rfl⟩

theorem TargetPort.Extends.trans {p q r : TargetPort} (h : p.Extends q) (k : q.Extends r) : p.Extends r :=
  ⟨h.queue.trans k.queue, by rw [k.rest, h.rest]⟩

theorem TargetPort.homeDone_extends (p : TargetPort) : p.Extends p.homeDone := by
  unfold TargetPort.homeDone
  split
  · exact ⟨List.prefix_rfl, rfl⟩
  · exact .refl p

theorem TargetPort.nextSync_extends (b : ButtonSet) (p : TargetPort) : p.Extends (p.nextSync b) := by
  unfold TargetPort.nextSync
  split
  · exact ⟨List.prefix_append .., rfl⟩
  · split
    · exact ⟨List.prefix_rfl, rfl⟩
    · exact ⟨List.prefix_append .., rfl⟩
  all_goals exact .refl p

theorem TargetPort.syncStep_extends (b : ButtonSet) (p : TargetPort) : p.Extends (p.syncStep b) := by
  unfold TargetPort.syncStep
  split
  · exact p.homeDone_extends.trans (TargetPort.nextSync_extends b _)
  · exact p.homeDone_extends

theorem TargetPort.resyncStep_rest (v : ModSet × List Key) (b : ButtonSet) (z : DeskSize) (p : TargetPort) :
    p.queue <+: (p.resyncStep v b z).queue ∧
      p.resyncStep v b z = { p with queue := (p.resyncStep v b z).queue, resync := (p.resyncStep v b z).resync } := by
  rw [TargetPort.resyncStep_eq Iff.rfl]
  split
  · split
    · exact ⟨(prefix_restateKeys ..).trans (List.prefix_append ..), rfl⟩
    · exact ⟨prefix_restateKeys .., rfl⟩
  · exact ⟨List.prefix_rfl, rfl⟩

/-- What both steps leave as it was. -/
theorem TargetPort.rest_of_steps {p q r : TargetPort} (hsync : q = { p with queue := q.queue, sync := q.sync })
    (hresync : r = { q with queue := r.queue, resync := r.resync }) :
    r = { p with queue := r.queue, sync := r.sync, resync := r.resync } := by
  rw [hresync, hsync]

/-! ## The end of the event, whole -/

section
variable {v : ModSet × List Key} {b : ButtonSet} {z : DeskSize} {n : Nat} {p : TargetPort}

theorem TargetPort.finish_eq_stallStep {q : TargetPort} (hsync : p.syncStep b = q) (hresync : q.resyncStep v b z = q) :
    p.finish v b z n = q.stallStep n := by
  rw [TargetPort.finish, hsync, hresync]

/-- What an event's end can do to a port (R112, R114, R118): reports are appended, and none where no sync is in HOME or APPROACH and no
resync waits; the stall timer goes by what is queued then; the rest of the port stays. -/
structure TargetPort.EndsAs (n : Nat) (p q : TargetPort) : Prop where
  queue   : p.queue <+: q.queue
  rest    : q = { p with queue := q.queue, sync := q.sync, resync := q.resync, stall := q.stall }
  stall   : q.stall = if q.queue = [] then none else if p.credit = 0 ∧ p.stall = none then some n else p.stall
  settled : p.sync.phase ≠ .home → p.sync.phase ≠ .approach → p.resync = false → q.queue = p.queue ∧ q.sync = p.sync ∧ q.resync = false

theorem TargetPort.finish_endsAs (v : ModSet × List Key) (b : ButtonSet) (z : DeskSize) (n : Nat) (p : TargetPort) :
    p.EndsAs n (p.finish v b z n) := by
  obtain ⟨hsync, hport⟩ := p.syncStep_extends b
  obtain ⟨hresync, hsame⟩ := (p.syncStep b).resyncStep_rest v b z
  have hrest := TargetPort.rest_of_steps hport hsame
  have hcredit : ((p.syncStep b).resyncStep v b z).credit = p.credit := (congrArg TargetPort.credit hrest :)
  have hstall : ((p.syncStep b).resyncStep v b z).stall = p.stall := (congrArg TargetPort.stall hrest :)
  rw [TargetPort.finish, TargetPort.stallStep_eq hcredit hstall]
  refine ⟨hsync.trans hresync, ?_, rfl, fun hhome happroach hresync => ?_⟩
  · rw [hrest]
  · rw [TargetPort.syncStep_idle hhome happroach, TargetPort.resyncStep_unasked hresync]
    exact ⟨rfl, rfl, hresync⟩

theorem TargetPort.finish_inactive (hpower : p.power ≠ .active) (hhome : p.sync.phase ≠ .home) : p.finish v b z n = p.stallStep n :=
  TargetPort.finish_eq_stallStep (TargetPort.syncStep_inactive hpower hhome) (TargetPort.resyncStep_inactive hpower)

/-- The resync of an ACTIVE port whose sync is not under way, with two places free. -/
theorem TargetPort.finish_resync (hpower : p.power = .active) (hresync : p.resync = true) (hstall : p.stall = none) (hhome : p.sync.phase ≠ .home)
    (happroach : p.sync.phase ≠ .approach) (hroom : p.queue.length + 2 ≤ 32) : p.finish v b z n = { p with
      queue := restateKeys v.1 v.2 p.queue ++ [p.stillReport z 0 b]
      resync := false
      stall := if p.credit = 0 then some n else none } := by
  rw [TargetPort.finish, TargetPort.syncStep_idle hhome happroach, TargetPort.resyncStep_placed hpower hresync hroom]
  exact TargetPort.stallStep_waiting (List.concat_ne_nil _ _) hstall

/-- A home step followed by the resync, of an ACTIVE port with three places free. -/
theorem TargetPort.finish_home (hpower : p.power = .active) (hresync : p.resync = true) (hstall : p.stall = none) (hphase : p.sync.phase = .home)
    (hleft : 0 < p.sync.homeLeft) (hmark : p.queue.any Report.isSync = false) (hroom : p.queue.length + 3 ≤ 32) :
    p.finish v b z n = { p with
      queue := p.queue ++ [.rel (-deltaLimit p.mode) (-deltaLimit p.mode) 0 (buttonsIn p.mode b) true, .keys v.1 v.2, p.stillReport z 0 b]
      sync := { p.sync with homeLeft := p.sync.homeLeft - 1 }
      resync := false
      stall := if p.credit = 0 then some n else none } := by
  have hdue : p.syncDue = true := TargetPort.syncDue_iff.2 ⟨hpower, hmark, by omega⟩
  have hroom' : (p.homeStep b).queue.length + 2 ≤ 32 := by
    rw [TargetPort.homeStep, List.length_append, List.length_singleton]
    exact hroom
  rw [TargetPort.finish, TargetPort.syncStep_home hphase hleft, if_pos hdue, TargetPort.resyncStep_placed (p := p.homeStep b) hpower hresync hroom']
  rw [TargetPort.homeStep, restateKeys_concat_rel, List.append_assoc]
  exact TargetPort.stallStep_waiting (List.append_ne_nil_of_right_ne_nil _ (List.cons_ne_nil _ _)) hstall

end

/-! ## One port of the state -/

theorem State.modTarget_port (t : Target) (f : TargetPort → TargetPort) (s : State) : (s.modTarget t f).targets[t] = f s.targets[t] := upd_get ..

theorem State.modTarget_other {t u : Target} (f : TargetPort → TargetPort) (s : State) (h : u ≠ t) :
    (s.modTarget t f).targets[u] = s.targets[u] := upd_get_ne _ _ _ _ h

/-- A port's event, ended: one port changed, as `EndsAs` says. -/
theorem State.portEnd_endsAs (t : Target) (f : TargetPort → TargetPort) (s : State) : ∃ q : TargetPort,
    (s.modTarget t f).portEnd t = s.modTarget t (fun _ => q) ∧ (f s.targets[t]).EndsAs s.desk.stallTime q :=
  ⟨_, s.portEnd_modTarget t f, TargetPort.finish_endsAs ..⟩

end Sys2Proof.Machine
end

section
/-! PROOFS. Attach, credit, sends and stalls at a target port (O22, O25, O30, O31). -/

namespace Sys2Proof.Machine

/-! ## The rows executed -/

theorem running_onAttached {t : Target} {f : State → State} {s : State} (hreset : s.resetAsserted = false)
    (hattached : s.targets[t].attached = true) : running s (onAttached t f) = .next (f s) := by
  rw [running_eq s _ hreset, onAttached, if_pos hattached]

theorem exec_pAttach {t : Target} {m : Mode} {s : State} (hreset : s.resetAsserted = false) :
    exec (.pAttach t m) s = .next ((if s.targets[t].attached then s.teardown t else s).modTarget t (TargetPort.attach m)) :=
  running_eq s _ hreset

theorem exec_pDetach {t : Target} {s : State} (hreset : s.resetAsserted = false) (hattached : s.targets[t].attached = true) :
    exec (.pDetach t) s = .next (s.teardown t) := by
  refine (running_eq s _ hreset).trans ?_
  rw [State.detachTarget, if_pos hattached]

theorem State.teardown_unattached (t : Target) (s : State) : (s.teardown t).targets[t].attached = false := by
  have hport : (s.teardown t).targets[t] = s.targets[t].tornDown := by
    rw [State.teardown_eq]
    exact upd_get ..
  rw [hport]
  rfl

theorem creditOk_iff {n : Byte} : creditOk n = true ↔ 1 ≤ n.toNat ∧ n.toNat ≤ 32 := by
  rw [creditOk, Bool.and_eq_true, decide_eq_true_eq, decide_eq_true_eq]
  rfl

theorem exec_pCredit {t : Target} {n : Byte} {s : State} (hreset : s.resetAsserted = false) (hattached : s.targets[t].attached = true)
    (hn : creditOk n = true) : exec (.pCredit t n) s = .next (s.grantCredit t n.toNat) := by
  have hexec : exec (.pCredit t n) s = running s (onAttached t (State.grantCredit t n.toNat)) := by
    show running s (fun s => if creditOk n then onAttached t (State.grantCredit t n.toNat) s else s.targetLaneError t) = _
    simp only [hn, if_true]
  rw [hexec, running_onAttached hreset hattached]

/-! ## Sends (R113) -/

/-- The head report on the lane, the port without it, the end of the event. -/
theorem State.sendReport_of_credit {t : Target} {r : Report} {rest : List Report} {s : State} (hattached : s.targets[t].attached = true)
    (hq : s.targets[t].queue = r :: rest) (hcredit : 0 < s.targets[t].credit) :
    s.sendReport t = ((s.send (.report t r)).modTarget t (TargetPort.popReport rest)).portEnd t := by
  rw [State.sendReport, hq]
  dsimp only
  rw [if_neg (Nat.ne_of_gt hcredit), State.sendTo, if_pos hattached]

theorem State.sendReport_without_credit {t : Target} {s : State} (h : s.targets[t].credit = 0) : s.sendReport t = s := by
  unfold State.sendReport
  split
  · rfl
  · exact if_pos h

theorem State.sendReport_empty {t : Target} {s : State} (h : s.targets[t].queue = []) : s.sendReport t = s := by
  rw [State.sendReport, h]

/-! ## A stall (R115) -/

/-- The raise sees the same subscribers before and after the port is emptied. -/
theorem State.stallExpiry_eq {t : Target} {v : Nat} {s : State} (h : s.targets[t].stall = some v) :
    s.stallExpiry t = ((s.raise .targetStalled (eightSubject t)).modTarget t TargetPort.stalled).portEnd t := by
  rw [State.stallExpiry, h, if_neg (by simp), State.raise_modTarget (f := TargetPort.stalled) fun _ => rfl]

/-- The resync finds an empty queue, so both its reports are placed. -/
theorem TargetPort.finish_stalled {v : ModSet × List Key} {b : ButtonSet} {z : DeskSize} {n : Nat} {p : TargetPort} (h : p.power = .active) :
    p.stalled.finish v b z n = { p.stalled with
      queue := [.keys v.1 v.2, p.stillReport z 0 b]
      resync := false
      stall := if p.credit = 0 then some n else none } :=
  TargetPort.finish_resync (p := p.stalled) h rfl rfl nofun nofun (Nat.le_add_left 2 30)

theorem State.stallExpiry_active {t : Target} {v : Nat} {s : State} (hstall : s.targets[t].stall = some v)
    (hpower : s.targets[t].power = .active) : s.stallExpiry t = (s.raise .targetStalled (eightSubject t)).modTarget t fun p => { p.stalled with
      queue := [.keys (s.view t).1 (s.view t).2, p.stillReport (s.desktop t) 0 (s.buttonSet t)]
      resync := false
      stall := if p.credit = 0 then some s.desk.stallTime else none } := by
  rw [State.stallExpiry_eq hstall, State.portEnd_modTarget]
  exact State.modTarget_congr (TargetPort.finish_stalled hpower)

end Sys2Proof.Machine

open Sys2Proof Sys2Proof.Machine

/-- Settles O22: an attach is one change of the port, after a teardown where the port was ATTACHED. -/
theorem targetAttachAndReattachAreTaken : Obligations.TargetAttachAndReattachAreTaken := by
  intro t m s hreset
  refine ⟨fun hfree => ?_, fun hattached => ⟨s.teardown t, exec_pDetach hreset hattached, s.teardown_unattached t, ?_⟩⟩
  · rw [exec_pAttach hreset, hfree]
    rfl
  · rw [exec_pAttach hreset, if_pos hattached]
    rfl

/-- Settles O25: with a credit in hand the end of the event starts no stall timer (`TargetPort.finish_extends`), and on a settled port it
changes nothing (`TargetPort.finish_settled`). -/
theorem creditIsAddedAndStopsTheStallTimer : Obligations.CreditIsAddedAndStopsTheStallTimer := by
  intro t n s hreset hattached hlow hhigh
  have hcredit : (s.targets[t].addCredit n.toNat).credit ≠ 0 := by
    simp only [TargetPort.addCredit, Config.creditMax]
    omega
  obtain ⟨q, hend, hqueue, hrest, hstall, hsettled⟩ := s.portEnd_endsAs t (TargetPort.addCredit n.toNat)
  refine ⟨s.modTarget t fun _ => q, ?_, rfl, fun u hu => s.modTarget_other _ hu, ?_⟩
  · rw [exec_pCredit hreset hattached (creditOk_iff.2 ⟨hlow, hhigh⟩), State.grantCredit, hend]
  have hcount : q.credit = min 32 (s.targets[t].credit + n.toNat) := (congrArg TargetPort.credit hrest :)
  have hstopped : q.stall = none := by
    have hidle : (s.targets[t].addCredit n.toNat).stall = none := rfl
    rw [hstall, hidle, if_neg (fun h : _ ∧ none = none => hcredit h.1), ite_self]
  rw [State.modTarget_port]
  refine ⟨hcount, hstopped, hrest.trans ?_, hqueue, hsettled⟩
  rw [hstopped]
  simp only [hcount]
  rfl

/-- Settles O30: the head leaves and the event ends (`State.sendReport_of_credit`, `State.portEnd_endsAs`); the end of an event is
its sync step, its resync and its stall step, each said whole. -/
theorem sendTakesTheHeadAndOneCredit : Obligations.SendTakesTheHeadAndOneCredit := by
  constructor
  · intro t s hreset
    refine ⟨fun r rest hattached hq hcredit => ?_, fun h => ?_, fun h => ?_⟩
    · obtain ⟨q, hend, hqueue, hrest, hstall, hsettled⟩ := (s.send (.report t r)).portEnd_endsAs t (TargetPort.popReport rest)
      have hcount : q.credit = s.targets[t].credit - 1 := (congrArg TargetPort.credit hrest :)
      have hlast : s.targets[t].credit - 1 = 0 ↔ s.targets[t].credit = 1 := by omega
      refine ⟨(s.send (.report t r)).modTarget t fun _ => q, ?_, rfl, ?_⟩
      · exact (running_eq s _ hreset).trans (congrArg _ ((State.sendReport_of_credit hattached hq hcredit).trans hend))
      rw [State.modTarget_port]
      refine ⟨hcount, hqueue, ⟨fun u hu => State.modTarget_other _ _ hu, rfl⟩, rfl, ?_, ?_, hsettled⟩
      · refine hrest.trans ?_
        rw [hcount]
        rfl
      · refine hstall.trans ?_
        simp only [TargetPort.popReport, State.send_targets, State.send_desk, hlast]
    · exact (running_eq s _ hreset).trans (congrArg _ (State.sendReport_without_credit h))
    · exact (running_eq s _ hreset).trans (congrArg _ (State.sendReport_empty h))
  · intro t s p d L b marked due approach synced keys still restated resynced
    have hstill : p.stillReport d 0 (s.buttonSet t) = still := by
      simp only [still, b, TargetPort.stillReport]
      cases p.mode <;> rfl
    have hsynced : p.syncStep (s.buttonSet t) = synced := TargetPort.syncStep_eq TargetPort.syncDue_iff
    obtain ⟨-, hport⟩ := p.syncStep_extends (s.buttonSet t)
    rw [hsynced] at hport
    clear_value synced
    have hpower : synced.power = p.power := (congrArg TargetPort.power hport :)
    have hresync : synced.resync = p.resync := (congrArg TargetPort.resync hport :)
    have hreport : synced.stillReport d 0 (s.buttonSet t) = still :=
      (congrArg (TargetPort.stillReport d 0 (s.buttonSet t)) hport).trans hstill
    have hresynced : synced.resyncStep (s.view t) (s.buttonSet t) d = resynced := by
      rw [TargetPort.resyncStep_eq (due := p.power = .active ∧ p.resync = true ∧ synced.queue.length < 32) (by rw [hpower, hresync]), hreport]
      rfl
    obtain ⟨-, hsame⟩ := synced.resyncStep_rest (s.view t) (s.buttonSet t) d
    rw [hresynced] at hsame
    have hrest := TargetPort.rest_of_steps hport hsame
    have hcredit : resynced.credit = p.credit := (congrArg TargetPort.credit hrest :)
    have hstall : resynced.stall = p.stall := (congrArg TargetPort.stall hrest :)
    have hfinish : p.finish (s.view t) (s.buttonSet t) d s.desk.stallTime = resynced.stallStep s.desk.stallTime := by
      rw [TargetPort.finish, hsynced, hresynced]
    exact State.modTarget_congr (g := fun _ => _) (hfinish.trans (TargetPort.stallStep_eq hcredit hstall))

/-- Settles O31: the resync finds an empty queue, and the raise leaves the port as it is (`State.stallExpiry_eq`). -/
theorem stallFlushesAndResyncs : Obligations.StallFlushesAndResyncs := by
  intro t v s hreset hstall hpower
  have hraised : has ((s.raise .targetStalled (eightSubject t)).subjects .targetStalled) (eightSubject t) = true := by
    simp [State.raise_has]
  refine ⟨s.stallExpiry t, running_eq s _ hreset, ?_⟩
  rw [State.stallExpiry_active hstall hpower]
  refine ⟨⟨fun u hu => State.modTarget_other _ _ hu, rfl⟩, ?_, hraised, rfl, rfl⟩
  rw [State.modTarget_port]
  refine ⟨congrArg (fun r => [Report.keys _ _, r]) ?_, rfl⟩
  show s.targets[t].stillReport (s.desktop t) 0 (s.buttonSet t) = _
  unfold TargetPort.stillReport
  cases s.targets[t].mode <;> rfl
end

section
/-! PROOFS. Mode change and resumption at a target port (O24, O28). -/

namespace Sys2Proof.Machine

/-! ## Home steps (R117) -/

/-- A desktop has a pixel, so its sync has a home step. -/
theorem homeSteps_pos {m : Mode} {z : DeskSize} (h : z.InRange) : 0 < homeSteps m z := by
  obtain ⟨hw, -⟩ := h
  have hL : 1 ≤ (deltaLimit m).toNat := by cases m <;> decide
  have hquotient : 1 ≤ ceilDiv (max z.dw z.dh) (deltaLimit m).toNat := by
    rw [ceilDiv, Nat.le_div_iff_mul_le hL]
    omega
  exact Nat.lt_min.2 ⟨by decide, hquotient⟩

/-! ## Mode change (R108) -/

/-- The sync record a mode change leaves before its event ends: that of an entry-sync request at a relative focus target, CLEARED at
every other one. -/
def State.modeSync (t : Target) (m : Mode) (s : State) : SyncRecord :=
  if t = s.focus.target ∧ m ≠ .absolute then (s.targets[t].changeMode m).requestedSync (homeSteps m (s.desktop t))
  else { s.targets[t].sync with phase := .cleared }

/-- The port in another mode, its queues empty, a resync to come. -/
def TargetPort.restart (m : Mode) (sync : SyncRecord) (p : TargetPort) : TargetPort :=
  { p with mode := m, queue := [], hold := [], resync := true, stall := none, sync := sync }

theorem TargetPort.requestSync_absolute {z : DeskSize} {p : TargetPort} (h : p.mode = .absolute) : p.requestSync z = p := by
  rw [TargetPort.requestSync, h]
  rfl

theorem State.changeMode_eq (t : Target) (m : Mode) (s : State) :
    s.changeMode t m = (s.modTarget t (TargetPort.restart m (s.modeSync t m))).portEnd t := by
  have htwice : (s.modTarget t (TargetPort.changeMode m)).modTarget t (TargetPort.requestSync (s.desktop t)) =
      s.modTarget t (TargetPort.requestSync (s.desktop t) ∘ TargetPort.changeMode m) := by
    simp only [State.modTarget, upd_upd]
  unfold State.changeMode State.modeSync
  by_cases hfocus : t = s.focus.target
  · simp only [hfocus, true_and, if_true] at htwice ⊢
    rw [htwice]
    refine congrArg _ (State.modTarget_congr ?_)
    by_cases hmode : m = .absolute
    · rw [if_neg fun h => h hmode]
      exact TargetPort.requestSync_absolute hmode
    · rw [if_pos hmode]
      exact TargetPort.requestSync_relative hmode
  · simp only [hfocus, false_and, if_false]
    rfl

theorem State.modeSync_cleared {t : Target} {m : Mode} {s : State} (h : ¬(t = s.focus.target ∧ m ≠ .absolute)) :
    s.modeSync t m = { s.targets[t].sync with phase := .cleared } := if_neg h

theorem State.modeSync_home {t : Target} {m : Mode} {s : State} (hpower : s.targets[t].power = .active) (hfocus : t = s.focus.target)
    (hmode : m ≠ .absolute) : s.modeSync t m = { s.targets[t].sync with phase := .home, homeLeft := homeSteps m (s.desktop t) } := by
  have hactive : (s.targets[t].changeMode m).power = .active := hpower
  rw [State.modeSync, if_pos ⟨hfocus, hmode⟩, TargetPort.requestedSync, hactive]
  rfl

theorem State.modeSync_inactive {t : Target} {m : Mode} {s : State} (hpower : s.targets[t].power ≠ .active) : (s.modeSync t m).phase =
    if t = s.focus.target ∧ m ≠ .absolute ∧ s.targets[t].power ≠ .absent then .pending else .cleared := by
  have hkept : (s.targets[t].changeMode m).power = s.targets[t].power := rfl
  by_cases hasked : t = s.focus.target ∧ m ≠ .absolute
  · obtain ⟨hfocus, hmode⟩ := hasked
    rw [State.modeSync, if_pos ⟨hfocus, hmode⟩, TargetPort.requestedSync, hkept]
    cases hstate : s.targets[t].power with
    | active => exact absurd hstate hpower
    | absent => exact (if_neg fun h => h.2.2 rfl).symm
    | suspended | waking => exact (if_pos ⟨hfocus, hmode, by decide⟩).symm
  · rw [State.modeSync_cleared hasked, if_neg fun h => hasked ⟨h.1, h.2.1⟩]

section
variable {v : ModSet × List Key} {b : ButtonSet} {z : DeskSize} {n : Nat} {m : Mode} {sync : SyncRecord} {p : TargetPort}

theorem TargetPort.finish_restart_cleared (hpower : p.power = .active) (hsync : sync.phase = .cleared) :
    (p.restart m sync).finish v b z n = { p.restart m sync with
      queue := [.keys v.1 v.2, (p.restart m sync).stillReport z 0 b]
      resync := false
      stall := if p.credit = 0 then some n else none } :=
  TargetPort.finish_resync (p := p.restart m sync) hpower rfl rfl (by rw [TargetPort.restart, hsync]; decide)
    (by rw [TargetPort.restart, hsync]; decide) (Nat.le_add_left 2 30)

theorem TargetPort.finish_restart_home (hpower : p.power = .active) (hphase : sync.phase = .home) (hleft : 0 < sync.homeLeft) :
    (p.restart m sync).finish v b z n = { p.restart m sync with
      queue := [.rel (-deltaLimit m) (-deltaLimit m) 0 (buttonsIn m b) true, .keys v.1 v.2, (p.restart m sync).stillReport z 0 b]
      sync := { sync with homeLeft := sync.homeLeft - 1 }
      resync := false
      stall := if p.credit = 0 then some n else none } :=
  TargetPort.finish_home (p := p.restart m sync) hpower rfl rfl hphase hleft rfl (Nat.le_add_left 3 29)

theorem TargetPort.finish_restart_inactive (hpower : p.power ≠ .active) (hphase : sync.phase ≠ .home) :
    (p.restart m sync).finish v b z n = p.restart m sync :=
  (TargetPort.finish_inactive (p := p.restart m sync) hpower hphase).trans (TargetPort.stallStep_empty rfl)

end

/-! ## Resumption (R148) -/

theorem Report.Mergeable.isPointer {old r : Report} (h : old.Mergeable r) : old.isPointer = true ∧ r.isPointer = true := by
  cases h <;> exact ⟨rfl, rfl⟩

theorem TargetPort.offer_appends {coalesce : Nat} {r : Report} {p : TargetPort} (hmerged : p.merged coalesce r = none)
    (hroom : p.queue.length < 32) : p.offer coalesce r = { p with queue := p.queue ++ [r] } := by
  rw [TargetPort.offer, hmerged]
  exact if_neg fun hfull => Nat.not_le.2 hroom (TargetPort.queueFull_iff.1 hfull)

/-- Reports among which one at most is a pointer report find no partner to merge with: each takes a place, in order. -/
theorem TargetPort.foldl_offer {coalesce : Nat} (l : List Report) (p : TargetPort) (hroom : p.queue.length + l.length ≤ 32)
    (hpointers : (p.queue ++ l).countP Report.isPointer ≤ 1) :
    l.foldl (fun acc r => acc.offer coalesce r) p = { p with queue := p.queue ++ l } := by
  induction l generalizing p with
  | nil => rw [List.foldl_nil, List.append_nil]
  | cons r rest ih =>
    have hnever : ∀ old : Report, p.queue.getLast? = some old → ¬old.Mergeable r := fun old hlast hmerge => by
      obtain ⟨hold, hr⟩ := hmerge.isPointer
      have hqueued : 0 < p.queue.countP Report.isPointer := List.countP_pos_iff.2 ⟨old, List.mem_of_getLast? hlast, hold⟩
      rw [List.countP_append, List.countP_cons_of_pos hr] at hpointers
      omega
    have hoffer := TargetPort.offer_appends (coalesce := coalesce) (TargetPort.merged_eq_none (.inr hnever))
      (show p.queue.length < 32 by rw [List.length_cons] at hroom; omega)
    rw [List.foldl_cons, hoffer, ih]
    · simp only [List.append_assoc, List.singleton_append]
    · simp only [List.length_append, List.length_cons, List.length_nil] at hroom ⊢
      omega
    · simpa only [List.append_assoc, List.singleton_append] using hpointers

/-- A resumed port before its event ends: the held reports in the delivery queue, a resync to come, a PENDING record HOME. -/
def TargetPort.resumed (z : DeskSize) (p : TargetPort) : TargetPort :=
  { p with
    wakeTimer := none, retry := 0, power := .active, hold := [], queue := p.hold, resync := true
    sync := if p.sync.phase = .pending then { p.sync with phase := .home, homeLeft := homeSteps p.mode z } else p.sync }

theorem TargetPort.resume_eq {coalesce : Nat} {z : DeskSize} {p : TargetPort} (hqueue : p.queue = []) (hroom : p.hold.length ≤ 32)
    (hpointers : p.hold.countP Report.isPointer ≤ 1) : p.resume coalesce z = p.resumed z := by
  have hmoved := TargetPort.foldl_offer (coalesce := coalesce) p.hold { p with wakeTimer := none, retry := 0, power := .active, hold := [] }
    (by rw [hqueue, List.length_nil]; omega) (by rwa [hqueue])
  unfold TargetPort.resume
  dsimp only
  rw [hmoved, hqueue]
  unfold TargetPort.resumed TargetPort.startHome
  dsimp only
  split <;> rfl

section
variable {v : ModSet × List Key} {b : ButtonSet} {z : DeskSize} {n : Nat} {p : TargetPort}

theorem TargetPort.finish_resumed_cleared (hphase : p.sync.phase = .cleared) (hstall : p.stall = none) (hroom : p.hold.length ≤ 16) :
    (p.resumed z).finish v b z n = { p with
      power := .active, wakeTimer := none, retry := 0, hold := [], resync := false
      queue := restateKeys v.1 v.2 p.hold ++ [p.stillReport z 0 b]
      stall := if p.credit = 0 then some n else none } := by
  have hport : p.resumed z = { p with wakeTimer := none, retry := 0, power := .active, hold := [], queue := p.hold, resync := true } := by
    rw [TargetPort.resumed, if_neg (by rw [hphase]; decide)]
  rw [hport]
  exact TargetPort.finish_resync rfl rfl hstall (by rw [hphase]; decide) (by rw [hphase]; decide) (by dsimp only; omega)

theorem TargetPort.finish_resumed_pending (hphase : p.sync.phase = .pending) (hstall : p.stall = none) (hroom : p.hold.length ≤ 16)
    (hmark : p.hold.any Report.isSync = false) (hz : z.InRange) : (p.resumed z).finish v b z n = { p with
      power := .active, wakeTimer := none, retry := 0, hold := [], resync := false
      queue := p.hold ++ [.rel (-deltaLimit p.mode) (-deltaLimit p.mode) 0 (buttonsIn p.mode b) true, .keys v.1 v.2, p.stillReport z 0 b]
      sync := { p.sync with phase := .home, homeLeft := homeSteps p.mode z - 1 }
      stall := if p.credit = 0 then some n else none } := by
  have hport : p.resumed z = { p with
      wakeTimer := none, retry := 0, power := .active, hold := [], queue := p.hold, resync := true
      sync := { p.sync with phase := .home, homeLeft := homeSteps p.mode z } } := by
    rw [TargetPort.resumed, if_pos hphase]
  rw [hport]
  exact TargetPort.finish_home rfl rfl hstall rfl (homeSteps_pos hz) hmark (by dsimp only; omega)

end

theorem State.resume_eq {t : Target} {s : State} (hqueue : s.targets[t].queue = []) (hroom : s.targets[t].hold.length ≤ 32)
    (hpointers : s.targets[t].hold.countP Report.isPointer ≤ 1) : s.resume t = s.modTarget t fun p =>
      (p.resumed (s.desktop t)).finish (s.view t) (s.buttonSet t) (s.desktop t) s.desk.stallTime := by
  rw [State.resume, State.modTarget_congr (g := TargetPort.resumed (s.desktop t)) (TargetPort.resume_eq hqueue hroom hpointers),
    State.portEnd_modTarget]
  exact State.modTarget_congr rfl

end Sys2Proof.Machine

open Sys2Proof Sys2Proof.Machine

/-- Settles O28: the held reports find a place each (`TargetPort.foldl_offer`), so that a home step and the resync fit behind them. -/
theorem resumptionMovesTheHoldQueue : Obligations.ResumptionMovesTheHoldQueue := by
  intro t s hreset hattached hpower hbounded hsound hrange
  obtain ⟨-, hhold, -, -, hpointers, -, hmarks, -⟩ := hbounded
  obtain ⟨-, hqueued, -, -, hstalled, -, hphases, -⟩ := hsound
  have hinactive : s.targets[t].power ≠ .active := by rcases hpower with h | h <;> rw [h] <;> decide
  have hqueue : s.targets[t].queue = [] := by
    by_contra h
    exact hinactive (hqueued h)
  have hstall : s.targets[t].stall = none := by
    rw [← Option.not_isSome_iff_eq_none]
    exact fun h => hstalled h hqueue
  have htaken : s.takePower t .active = s.resume t := by rcases hpower with h | h <;> simp only [State.takePower, h]
  have hmark : s.targets[t].hold.any Report.isSync = false := by
    rw [← Bool.not_eq_true, List.any_eq_true]
    rintro ⟨r, hr, hsync⟩
    exact Nat.ne_of_gt (List.countP_pos_iff.2 ⟨r, hr, hsync⟩) hmarks
  obtain ⟨-, -, -, -, hdesktops⟩ := hrange
  refine ⟨s.resume t, by rw [exec_pPower hreset hattached, htaken], ?_⟩
  rw [State.resume_eq hqueue (hhold.trans (by decide)) hpointers]
  refine ⟨rfl, fun u hu => s.modTarget_other _ hu, ?_⟩
  rw [State.modTarget_port]
  intro p q d b keys still L
  have hstill : p.stillReport (s.desktop t) 0 b = still := by
    simp only [still, TargetPort.stillReport]
    cases p.mode <;> rfl
  rcases hphases hinactive with hphase | hphase
  · have hq : q = _ := TargetPort.finish_resumed_cleared hphase hstall hhold
    rw [hstill] at hq
    rw [hq]
    exact ⟨rfl, fun _ => ⟨rfl, rfl⟩, fun h => absurd (hphase.symm.trans h) (by decide)⟩
  · have hq : q = _ := TargetPort.finish_resumed_pending hphase hstall hhold hmark (hdesktops t)
    rw [hstill] at hq
    rw [hq]
    exact ⟨rfl, fun h => absurd (hphase.symm.trans h) (by decide), fun _ => ⟨rfl, Nat.sub_add_cancel (homeSteps_pos (hdesktops t)), rfl⟩⟩

/-- Settles O24: the queue is empty when the event ends (`State.changeMode_eq`), so a home step and the resync fit; at a target that is not
ACTIVE neither is made. -/
theorem modeChangeRestatesTheTarget : Obligations.ModeChangeRestatesTheTarget := by
  intro t m s hreset hattached hrange
  obtain ⟨-, -, -, -, hdesktops⟩ := hrange
  refine ⟨s.changeMode t m, running_onAttached hreset hattached, ?_⟩
  rw [State.changeMode_eq, State.portEnd_modTarget]
  refine ⟨rfl, fun u hu => s.modTarget_other _ hu, ?_⟩
  rw [State.modTarget_port]
  intro p q d keys b
  have hstill : m ≠ .absolute → (p.restart m (s.modeSync t m)).stillReport (s.desktop t) 0 b = .rel 0 0 0 (buttonsIn m b) false := fun h =>
    (TargetPort.stillReport_relative h).trans (by rw [wheelIn_zero]; rfl)
  by_cases hpower : p.power = .active
  · by_cases hasked : t = s.focus.target ∧ m ≠ .absolute
    · obtain ⟨hfocus, hmode⟩ := hasked
      have hsync := State.modeSync_home hpower hfocus hmode
      have hsteps : 0 < homeSteps m (s.desktop t) := homeSteps_pos (hdesktops t)
      have hq : q = _ := TargetPort.finish_restart_home hpower (by rw [hsync]) (by rw [hsync]; exact hsteps)
      rw [hstill hmode, hsync] at hq
      rw [hq]
      exact ⟨rfl, fun _ => ⟨rfl, rfl, fun h => absurd h hmode, fun _ h => absurd hfocus h,
        fun _ _ => ⟨rfl, rfl, Nat.sub_add_cancel hsteps⟩⟩, fun h => absurd hpower h⟩
    · have hq : q = _ := TargetPort.finish_restart_cleared hpower (by rw [State.modeSync_cleared hasked])
      have hcleared : (s.modeSync t m).phase = .cleared := by rw [State.modeSync_cleared hasked]
      rw [hq]
      refine ⟨rfl, fun _ => ⟨rfl, rfl, fun habs => ⟨?_, hcleared⟩, fun hrel _ => ⟨?_, hcleared⟩,
        fun hrel hfocus => absurd ⟨hfocus, hrel⟩ hasked⟩, fun h => absurd hpower h⟩
      · exact congrArg (fun r => [keys, r]) (TargetPort.stillReport_absolute habs)
      · exact congrArg (fun r => [keys, r]) (hstill hrel)
  · have hphase : (s.modeSync t m).phase = _ := State.modeSync_inactive hpower
    have hq : q = _ := TargetPort.finish_restart_inactive hpower (by rw [hphase]; split <;> decide)
    rw [hq]
    exact ⟨rfl, fun h => absurd h hpower, fun _ => ⟨rfl, rfl, rfl, hphase⟩⟩
end

section
/-! PROOFS. The lock states of a video head (O34, O35). -/

namespace Sys2Proof.Machine

/-! ## One head of the state -/

/-- A change of one head counts only by what it makes of the head it finds. -/
theorem State.modHead_congr {h : Head} {f g : HeadState → HeadState} {s : State} (e : f s.heads[h] = g s.heads[h]) :
    s.modHead h f = s.modHead h g := congrArg (fun v => { s with heads := v }) (upd_congr e)

theorem State.modHead_unchanged {h : Head} {f : HeadState → HeadState} {s : State} (e : f s.heads[h] = s.heads[h]) : s.modHead h f = s :=
  congrArg (fun v => { s with heads := v }) (upd_eq_self s.heads h f e)

/-! ## Signal arrival and loss (R124) -/

theorem HeadState.arrival_noSignal {x : HeadState} (hlock : x.lock = .noSignal) :
    x.arrival = { x with lock := .locking, candidate := none } := by rw [HeadState.arrival, hlock]

theorem HeadState.arrival_of_signal {x : HeadState} (hlock : x.lock ≠ .noSignal) : x.arrival = x := by
  unfold HeadState.arrival
  split
  · exact absurd ‹_› hlock
  all_goals rfl

theorem HeadState.loss_noSignal {x : HeadState} (hlock : x.lock = .noSignal) : x.loss = x := by rw [HeadState.loss, hlock]

theorem HeadState.loss_locking {x : HeadState} (hlock : x.lock = .locking) :
    x.loss = { x with lock := .noSignal, candidate := none } := by rw [HeadState.loss, hlock]

theorem HeadState.loss_locked {x : HeadState} (hlock : x.lock = .locked) :
    x.loss = { x with lock := .noSignal, candidate := none, sinceLoss := 0 } := by rw [HeadState.loss, hlock]

theorem exec_signalArrival {h : Head} {s : State} (hreset : s.resetAsserted = false) :
    exec (.signalArrival h) s = .next (s.modHead h HeadState.arrival) := running_eq s _ hreset

theorem exec_signalLoss {h : Head} {s : State} (hreset : s.resetAsserted = false) :
    exec (.signalLoss h) s = .next (s.modHead h HeadState.loss) := running_eq s _ hreset

/-! ## Frame ends that lock no head (R125, R126) -/

theorem measuredGeometry_of_ok {g : Geometry} (h : geometryOk g = true) : measuredGeometry g = g := if_pos h

theorem geometryOk_iff {g : Geometry} : geometryOk g = true ↔ 1 ≤ g.w ∧ g.w ≤ 32767 ∧ 1 ≤ g.h ∧ g.h ≤ 32767 := by
  simp [geometryOk, and_assoc]

theorem HeadState.frameEnd_newCandidate {g : Geometry} {picture : Nat} {x : HeadState} (hlock : x.lock = .locking)
    (hg : x.candidate ≠ some g) : x.frameEnd g picture = { x with candidate := some g } := by
  simp only [HeadState.frameEnd, hlock, if_neg hg]

theorem HeadState.frameEnd_measured_same {g : Geometry} {picture : Nat} {x : HeadState} (hlock : x.lock = .locked)
    (hm : x.measured = some (measuredGeometry g)) : x.frameEnd g picture = x.store g picture := by
  simp only [HeadState.frameEnd, hlock, if_pos hm]

theorem HeadState.frameEnd_measured_other {g : Geometry} {picture : Nat} {x : HeadState} (hlock : x.lock = .locked)
    (hm : x.measured ≠ some (measuredGeometry g)) :
    x.frameEnd g picture = { x with lock := .locking, candidate := some g, sinceLoss := 0 } := by
  simp only [HeadState.frameEnd, hlock, if_neg hm]

theorem HeadState.locks_of_otherLock {g : Geometry} {l : LockState} {x : HeadState} (hlock : x.lock = l) (hl : l ≠ .locking) :
    x.locks g = false := by
  rw [HeadState.locks, hlock, decide_eq_false hl, Bool.false_and]

theorem HeadState.locks_of_otherCandidate {g : Geometry} {x : HeadState} (hg : x.candidate ≠ some g) : x.locks g = false := by
  rw [HeadState.locks, decide_eq_false hg, Bool.and_false]

/-- A frame end that does not make the head lock has no consequence beyond the head. -/
theorem exec_headFrameEnd_unlocking {h : Head} {g : Geometry} {picture : Nat} {s : State} (hreset : s.resetAsserted = false)
    (hlocks : s.heads[h].locks g = false) :
    exec (.headFrameEnd h g picture) s = .next (s.modHead h (HeadState.frameEnd g picture)) := by
  refine (running_eq s _ hreset).trans (congrArg Host.Outcome.next ?_)
  rw [State.headFrameEnd, hlocks]
  rfl

end Sys2Proof.Machine

open Sys2Proof Sys2Proof.Machine

/-- Settles O34, by the head's lock state: each row of R124 is one equation of `HeadState.arrival` or `HeadState.loss`. -/
theorem signalChangesTheLockState : Obligations.SignalChangesTheLockState := by
  intro h s hreset
  dsimp only
  rw [exec_signalArrival hreset, exec_signalLoss hreset]
  refine ⟨fun hl => ?_, fun hl => ?_, fun hl => ?_, fun hl => ?_, fun hl => ?_⟩
  · exact congrArg _ (State.modHead_congr (HeadState.arrival_noSignal hl))
  · exact congrArg _ (State.modHead_unchanged (HeadState.arrival_of_signal hl))
  · exact congrArg _ (State.modHead_unchanged (HeadState.loss_noSignal hl))
  · exact congrArg _ (State.modHead_congr (HeadState.loss_locking hl))
  · exact congrArg _ (State.modHead_congr (HeadState.loss_locked hl))

/-- Settles O35: a frame end that locks no head is a change of that head (`exec_headFrameEnd_unlocking`), which the lock state and the
geometry choose. -/
theorem frameEndMovesTheHead : Obligations.FrameEndMovesTheHead := by
  intro h g pic s hreset
  refine ⟨fun hw hw' hh hh' => measuredGeometry_of_ok (geometryOk_iff.2 ⟨hw, hw', hh, hh'⟩), geometryOk_iff.1 (measuredGeometry_ok g),
    fun hl => ?_, fun hl hc => ?_, fun hl hm => ?_, fun hl hm => ?_⟩
  · rw [exec_headFrameEnd_unlocking hreset (HeadState.locks_of_otherLock hl (by decide))]
    exact congrArg _ (State.modHead_unchanged (HeadState.frameEnd_noSignal g pic _ hl))
  · rw [exec_headFrameEnd_unlocking hreset (HeadState.locks_of_otherCandidate hc)]
    exact congrArg _ (State.modHead_congr (HeadState.frameEnd_newCandidate hl hc))
  · rw [exec_headFrameEnd_unlocking hreset (HeadState.locks_of_otherLock hl (by decide))]
    exact congrArg _ (State.modHead_congr (HeadState.frameEnd_measured_same hl hm))
  · rw [exec_headFrameEnd_unlocking hreset (HeadState.locks_of_otherLock hl (by decide))]
    exact congrArg _ (State.modHead_congr (HeadState.frameEnd_measured_other hl hm))
end

section
/-! PROOFS. Window grants, and what a candidate window shows after its grant or refusal (O38, O39). -/

namespace Sys2Proof.Machine

/-! ## Grants in order (R138) -/

/-- What the granted ones of some tried windows cost together. -/
def grantedCost (cost : Window → Nat) (tried : List (Window × Bool)) : Nat := ((tried.filter Prod.snd).map fun q => cost q.1).sum

@[simp] theorem grantedCost_nil (cost : Window → Nat) : grantedCost cost [] = 0 := rfl

@[simp] theorem grantedCost_granted (cost : Window → Nat) (w : Window) (l : List (Window × Bool)) :
    grantedCost cost ((w, true) :: l) = cost w + grantedCost cost l := rfl

@[simp] theorem grantedCost_refused (cost : Window → Nat) (w : Window) (l : List (Window × Bool)) :
    grantedCost cost ((w, false) :: l) = grantedCost cost l := rfl

theorem grants_granted {cost : Window → Nat} {R : Nat} {w : Window} (h : cost w ≤ R) (ws : List Window) :
    grants cost R (w :: ws) = (w, true) :: grants cost (R - cost w) ws := if_pos h

theorem grants_refused {cost : Window → Nat} {R : Nat} {w : Window} (h : ¬cost w ≤ R) (ws : List Window) :
    grants cost R (w :: ws) = (w, false) :: grants cost R ws := if_neg h

/-- Each candidate is tried once, in order. -/
theorem grants_map_fst (cost : Window → Nat) (R : Nat) (ws : List Window) : (grants cost R ws).map Prod.fst = ws := by
  induction ws generalizing R with
  | nil => rfl
  | cons w ws ih =>
    by_cases h : cost w ≤ R
    · rw [grants_granted h, List.map_cons, ih]
    · rw [grants_refused h, List.map_cons, ih]

theorem grantedCost_grants_le (cost : Window → Nat) (R : Nat) (ws : List Window) : grantedCost cost (grants cost R ws) ≤ R := by
  induction ws generalizing R with
  | nil => exact Nat.zero_le R
  | cons w ws ih =>
    by_cases h : cost w ≤ R
    · rw [grants_granted h, grantedCost_granted]
      have := ih (R - cost w)
      omega
    · rw [grants_refused h, grantedCost_refused]
      exact ih R

/-- A candidate is granted exactly when it fits in what those granted before it have left. -/
theorem grants_granted_iff {cost : Window → Nat} {R : Nat} {ws : List Window} {pre post : List (Window × Bool)} {w : Window} {g : Bool}
    (h : grants cost R ws = pre ++ (w, g) :: post) : g = true ↔ cost w + grantedCost cost pre ≤ R := by
  induction ws generalizing R pre with
  | nil => simp [grants] at h
  | cons v ws ih =>
    by_cases hv : cost v ≤ R
    · rw [grants_granted hv] at h
      cases pre with
      | nil =>
        obtain ⟨⟨rfl, rfl⟩, -⟩ := by simpa using h
        simpa using hv
      | cons q pre =>
        obtain ⟨rfl, htail⟩ := List.cons.inj h
        rw [ih htail, grantedCost_granted]
        omega
    · rw [grants_refused hv] at h
      cases pre with
      | nil =>
        obtain ⟨⟨rfl, rfl⟩, -⟩ := by simpa using h
        simpa using hv
      | cons q pre =>
        obtain ⟨rfl, htail⟩ := List.cons.inj h
        rw [ih htail, grantedCost_refused]

/-! ## Content and age (R139) -/

theorem WindowState.settle_newFrame {latest : Option VideoFrame} {f : VideoFrame} {r : WindowState} (hlatest : latest = some f)
    (hnew : r.content.map VideoFrame.serial ≠ some f.serial) :
    r.settle true latest = { r with content := some f, age := 0, stale := false } := by
  subst hlatest
  simp [WindowState.settle, Option.filter, hnew]

theorem WindowState.settle_kept {granted : Bool} {latest : Option VideoFrame} {r : WindowState}
    (h : granted = false ∨ latest = none ∨ latest.map VideoFrame.serial = r.content.map VideoFrame.serial) :
    r.settle granted latest = { r with age := min 255 (r.age + 1) } := by
  rcases h with rfl | rfl | hsame
  · rfl
  · cases granted <;> rfl
  · cases latest with
    | none => cases granted <;> rfl
    | some f => simp [WindowState.settle, Option.filter, ← hsame]

/-- Settling clears a stale flag or leaves it. -/
theorem WindowState.settle_stale {granted : Bool} {latest : Option VideoFrame} {r : WindowState} (h : r.stale = false) :
    (r.settle granted latest).stale = false := by
  unfold WindowState.settle
  split
  · rfl
  · exact h

/-! ## The stale flag (R140) -/

/-- A record turns stale: its age has reached the stale frames with its flag clear. -/
def WindowState.turnsStale (limit : Nat) (r : WindowState) : Bool := limit ≤ r.age && !r.stale

/-- The record with its flag set where its age has reached the stale frames. -/
def WindowState.marked (limit : Nat) (r : WindowState) : WindowState := { r with stale := r.stale || decide (limit ≤ r.age) }

theorem WindowState.turnsStale_iff {limit : Nat} {r : WindowState} : r.turnsStale limit = true ↔ limit ≤ r.age ∧ r.stale = false := by
  simp [WindowState.turnsStale]

theorem WindowState.marked_turning {limit : Nat} {r : WindowState} (h : r.turnsStale limit = true) :
    r.marked limit = { r with stale := true } := by
  obtain ⟨hage, -⟩ := WindowState.turnsStale_iff.1 h
  simp [WindowState.marked, hage]

theorem WindowState.marked_staying {limit : Nat} {r : WindowState} (h : r.turnsStale limit = false) : r.marked limit = r := by
  have hflag : (r.stale || decide (limit ≤ r.age)) = r.stale := by
    cases hstale : r.stale <;> simp_all [WindowState.turnsStale]
  exact congrArg (fun b => { r with stale := b }) hflag

theorem WindowState.marked_stale_iff {limit : Nat} {r : WindowState} : (r.marked limit).stale = true ↔ r.stale = true ∨ limit ≤ r.age := by
  simp [WindowState.marked]

/-! ## A candidate settled -/

/-- The latest complete frame of a window's source head. -/
def State.sourceFrame (s : State) (w : Window) : Option VideoFrame := s.heads[s.active.windows[w].source].latest

/-- A candidate's record with content and age settled, before its stale flag is considered. -/
def State.settledContent (s : State) (q : Window × Bool) : WindowState := s.windows[q.1].settle q.2 (s.sourceFrame q.1)

/-- A candidate's record after its grant or refusal. -/
def State.settledRecord (s : State) (q : Window × Bool) : WindowState := (s.settledContent q).marked s.desk.staleFrames

/-- s with the candidate's record settled. -/
def State.withSettled (s : State) (q : Window × Bool) : State := { s with windows := upd s.windows q.1 fun _ => s.settledRecord q }

theorem State.settleWindow_turning {q : Window × Bool} {s : State} (h : (s.settledContent q).turnsStale s.desk.staleFrames = true) :
    s.settleWindow q = (s.withSettled q).raise .windowStale (eightSubject q.1) := by
  have hrecord : (upd s.windows q.1 (WindowState.settle q.2 (s.sourceFrame q.1)))[q.1] = s.settledContent q := upd_get ..
  have hmarked : upd (upd s.windows q.1 (WindowState.settle q.2 (s.sourceFrame q.1))) q.1 (fun r => { r with stale := true }) =
      upd s.windows q.1 fun _ => s.settledRecord q := by
    rw [upd_upd]
    exact upd_congr (WindowState.marked_turning h).symm
  have hcond : (s.desk.staleFrames ≤ (s.settledContent q).age && !(s.settledContent q).stale) = true := h
  rw [← hrecord] at hcond
  refine (if_pos hcond).trans (congrArg (State.raise .windowStale (eightSubject q.1)) ?_)
  exact congrArg (fun v => { s with windows := v }) hmarked

theorem State.settleWindow_staying {q : Window × Bool} {s : State} (h : (s.settledContent q).turnsStale s.desk.staleFrames = false) :
    s.settleWindow q = s.withSettled q := by
  have hrecord : (upd s.windows q.1 (WindowState.settle q.2 (s.sourceFrame q.1)))[q.1] = s.settledContent q := upd_get ..
  have hcond : ¬(s.desk.staleFrames ≤ (s.settledContent q).age && !(s.settledContent q).stale) = true :=
    Bool.eq_false_iff.1 h
  rw [← hrecord] at hcond
  refine (if_neg hcond).trans (congrArg (fun v => { s with windows := v }) (upd_congr ?_))
  exact (WindowState.marked_staying h).symm

theorem State.settleWindow_windows (s : State) (q : Window × Bool) :
    (s.settleWindow q).windows = upd s.windows q.1 fun _ => s.settledRecord q := by
  cases h : (s.settledContent q).turnsStale s.desk.staleFrames with
  | true => rw [State.settleWindow_turning h]; rfl
  | false => rw [State.settleWindow_staying h]; rfl

theorem State.settleWindow_same (s : State) (q : Window × Bool) : (s.settleWindow q).windows[q.1] = s.settledRecord q := by
  rw [State.settleWindow_windows, upd_get]

theorem State.settleWindow_other {w : Window} {q : Window × Bool} (s : State) (h : w ≠ q.1) :
    (s.settleWindow q).windows[w] = s.windows[w] := by
  rw [State.settleWindow_windows, upd_get_ne _ _ _ _ h]

/-- A candidate whose record turns stale is in the set of WINDOW_STALE. -/
theorem State.settleWindow_raised {q : Window × Bool} {s : State} (h : (s.settledContent q).turnsStale s.desk.staleFrames = true) :
    has ((s.settleWindow q).subjects .windowStale) (eightSubject q.1) = true := by
  rw [State.settleWindow_turning h, State.raise_has]
  simp

theorem State.settleWindow_unraised {q : Window × Bool} {s : State} (h : (s.settledContent q).turnsStale s.desk.staleFrames = false) :
    (s.settleWindow q).notices = s.notices := by
  rw [State.settleWindow_staying h]
  rfl

end Sys2Proof.Machine

open Sys2Proof Sys2Proof.Machine

/-- Settles O38, by induction on the candidates (`grants_map_fst`, `grantedCost_grants_le`, `grants_granted_iff`). -/
theorem grantsStayWithinTheRemainder : Obligations.GrantsStayWithinTheRemainder :=
  fun cost R ws => ⟨grants_map_fst cost R ws, grantedCost_grants_le cost R ws, fun _ _ _ _ => grants_granted_iff⟩

/-- Settles O39: a new frame resets age and flag below the stale frames; without one the age grows and the flag follows it
(`State.settledRecord`). -/
theorem candidateContentAndAgeAreSettled : Obligations.CandidateContentAndAgeAreSettled := by
  intro s w granted hlimit
  dsimp only
  have hsame := s.settleWindow_same (w, granted)
  rw [hsame]
  refine ⟨fun v hv => s.settleWindow_other hv, WindowState.settle_shown .., fun f hgranted hlatest hnew => ?_, fun hkept => ?_⟩
  · subst hgranted
    have hcontent : s.settledContent (w, true) = { s.windows[w] with content := some f, age := 0, stale := false } :=
      WindowState.settle_newFrame hlatest hnew
    have hstays : (s.settledContent (w, true)).turnsStale s.desk.staleFrames = false := by
      rw [hcontent, WindowState.turnsStale, decide_eq_false (Nat.not_le.2 hlimit), Bool.false_and]
    rw [State.settledRecord, WindowState.marked_staying hstays, State.settleWindow_unraised hstays, hcontent]
    exact ⟨rfl, rfl, rfl, rfl⟩
  · have hcontent : s.settledContent (w, granted) = { s.windows[w] with age := min 255 (s.windows[w].age + 1) } :=
      WindowState.settle_kept hkept
    rw [State.settledRecord, WindowState.marked_stale_iff, hcontent]
    refine ⟨rfl, rfl, .rfl, fun hstale => State.settleWindow_unraised ?_, fun hclear hreached => State.settleWindow_raised ?_⟩
    · rw [hcontent, WindowState.turnsStale, hstale, Bool.not_true, Bool.and_false]
    · rw [hcontent]
      exact WindowState.turnsStale_iff.2 ⟨hreached, hclear⟩
end

section
/-! SUPPORT. The steps of a display frame start (R135 to R141): candidates settled in turn, base, candidates in order, rotation start. -/

namespace Sys2Proof.Machine

/-! ## States that differ in their windows and in what a raise changes -/

/-- t is s with other window records, notice sets and frames sent. -/
def State.WindowsOnly (s t : State) : Prop := t = { s with windows := t.windows, notices := t.notices, sent := t.sent }

theorem State.WindowsOnly.refl (s : State) : s.WindowsOnly s := rfl

theorem State.WindowsOnly.trans {s t u : State} (h : s.WindowsOnly t) (k : t.WindowsOnly u) : s.WindowsOnly u := by
  unfold State.WindowsOnly at *
  rw [k, h]

theorem State.settleWindow_windowsOnly (s : State) (q : Window × Bool) : s.WindowsOnly (s.settleWindow q) := by
  cases h : (s.settledContent q).turnsStale s.desk.staleFrames with
  | true => rw [State.settleWindow_turning h]; rfl
  | false => rw [State.settleWindow_staying h]; rfl

theorem State.settleWindow_growsNotices (s : State) (q : Window × Bool) : s.GrowsNotices (s.settleWindow q) := by
  cases h : (s.settledContent q).turnsStale s.desk.staleFrames with
  | true =>
    rw [State.settleWindow_turning h]
    have hsettled : s.GrowsNotices (s.withSettled q) := .of_notices rfl
    exact hsettled.trans (State.raise_growsNotices ..)
  | false => rw [State.settleWindow_staying h]; exact .of_notices rfl

/-- What a candidate is settled to depends on its own record, its source head's frame and the stale frames. -/
theorem State.settledContent_congr {q : Window × Bool} {s t : State} (hwindow : t.windows[q.1] = s.windows[q.1])
    (hframe : t.sourceFrame q.1 = s.sourceFrame q.1) : t.settledContent q = s.settledContent q := by
  rw [State.settledContent, State.settledContent, hwindow, hframe]

theorem State.WindowsOnly.sourceFrame {s t : State} (h : s.WindowsOnly t) (w : Window) : t.sourceFrame w = s.sourceFrame w := by
  rw [h]
  rfl

theorem State.WindowsOnly.desk {s t : State} (h : s.WindowsOnly t) : t.desk = s.desk := by
  rw [h]

/-- Settling one candidate leaves what another one is settled to. -/
theorem State.settleWindow_settledContent {p q : Window × Bool} (s : State) (h : p.1 ≠ q.1) :
    (s.settleWindow q).settledContent p = s.settledContent p :=
  State.settledContent_congr (s.settleWindow_other h) ((s.settleWindow_windowsOnly q).sourceFrame p.1)

/-! ## Several candidates settled (R139, R140) -/

/-- s with the tried candidates settled in their order. -/
def State.settleAll (s : State) (tried : List (Window × Bool)) : State := tried.foldl State.settleWindow s

theorem State.settleAll_cons (s : State) (q : Window × Bool) (tried : List (Window × Bool)) :
    s.settleAll (q :: tried) = (s.settleWindow q).settleAll tried := rfl

theorem State.settleAll_windowsOnly (s : State) (tried : List (Window × Bool)) : s.WindowsOnly (s.settleAll tried) := by
  induction tried generalizing s with
  | nil => exact .refl s
  | cons q tried ih => exact (s.settleWindow_windowsOnly q).trans (ih _)

theorem State.settleAll_growsNotices (s : State) (tried : List (Window × Bool)) : s.GrowsNotices (s.settleAll tried) := by
  induction tried generalizing s with
  | nil => exact .of_notices rfl
  | cons q tried ih => exact (s.settleWindow_growsNotices q).trans (ih _)

theorem State.settleAll_other {w : Window} {tried : List (Window × Bool)} (s : State) (h : w ∉ tried.map Prod.fst) :
    (s.settleAll tried).windows[w] = s.windows[w] := by
  induction tried generalizing s with
  | nil => rfl
  | cons q tried ih =>
    obtain ⟨hq, htried⟩ := not_or.1 (List.mem_cons.not.1 h)
    rw [State.settleAll_cons, ih _ htried, s.settleWindow_other hq]

/-- Each of several candidates is settled as it would be alone. -/
theorem State.settleAll_window {tried : List (Window × Bool)} (s : State) (hnodup : (tried.map Prod.fst).Nodup) :
    ∀ q ∈ tried, (s.settleAll tried).windows[q.1] = s.settledRecord q := by
  induction tried generalizing s with
  | nil => simp
  | cons q tried ih =>
    obtain ⟨hq, htried⟩ := List.nodup_cons.1 hnodup
    rintro p (_ | ⟨_, hp⟩)
    · rw [State.settleAll_cons, State.settleAll_other _ hq, State.settleWindow_same]
    · have hne : p.1 ≠ q.1 := fun e => hq (e ▸ List.mem_map_of_mem hp)
      rw [State.settleAll_cons, ih _ htried p hp, State.settledRecord, State.settledRecord, s.settleWindow_settledContent hne,
        (s.settleWindow_windowsOnly q).desk]

/-- Each of several candidates that turns stale is in the set of WINDOW_STALE after the last is settled. -/
theorem State.settleAll_raised {tried : List (Window × Bool)} (s : State) (hnodup : (tried.map Prod.fst).Nodup) :
    ∀ q ∈ tried, (s.settledContent q).turnsStale s.desk.staleFrames = true →
      has ((s.settleAll tried).subjects .windowStale) (eightSubject q.1) = true := by
  induction tried generalizing s with
  | nil => simp
  | cons q tried ih =>
    obtain ⟨hq, htried⟩ := List.nodup_cons.1 hnodup
    rintro p (_ | ⟨_, hp⟩) hturns
    · exact (State.settleAll_growsNotices _ tried).keep _ _ (State.settleWindow_raised hturns)
    · have hne : p.1 ≠ q.1 := fun e => hq (e ▸ List.mem_map_of_mem hp)
      refine ih _ htried p hp ?_
      rw [s.settleWindow_settledContent hne, (s.settleWindow_windowsOnly q).desk]
      exact hturns

/-- A candidate whose flag is set where it was clear before has turned stale. -/
theorem State.turnsStale_of_settledRecord {q : Window × Bool} {s : State} (hset : (s.settledRecord q).stale = true)
    (hclear : s.windows[q.1].stale = false) : (s.settledContent q).turnsStale s.desk.staleFrames = true := by
  have hcontent : (s.settledContent q).stale = false := WindowState.settle_stale hclear
  have hreached := (WindowState.marked_stale_iff.1 hset).resolve_left (by simp [hcontent])
  exact WindowState.turnsStale_iff.2 ⟨hreached, hcontent⟩

/-! ## The base (R135, R136) -/

theorem State.baseChoice_none {d : Display} {s : State} (hbase : s.active.displays[d].base = none) : s.baseChoice d = (.fill, none) := by
  rw [State.baseChoice, hbase]

theorem State.baseChoice_locked {d : Display} {h : Head} {s : State} (hbase : s.active.displays[d].base = some h)
    (hlock : s.heads[h].lock = .locked) : s.baseChoice d = (.live, s.heads[h].latest) := by
  rw [State.baseChoice, hbase]
  exact if_pos hlock

theorem State.baseChoice_held {d : Display} {h : Head} {s : State} (hbase : s.active.displays[d].base = some h)
    (hlock : s.heads[h].lock ≠ .locked) (hframe : s.heads[h].latest ≠ none) (hrecent : s.heads[h].sinceLoss < s.desk.holdFrames) :
    s.baseChoice d = (.held, s.heads[h].latest) := by
  rw [State.baseChoice, hbase]
  refine (if_neg hlock).trans (if_pos ?_)
  rw [Option.isSome_iff_ne_none.2 hframe, decide_eq_true hrecent]
  rfl

theorem State.baseChoice_expired {d : Display} {h : Head} {s : State} (hbase : s.active.displays[d].base = some h)
    (hlock : s.heads[h].lock ≠ .locked) (hnone : s.heads[h].latest = none ∨ s.desk.holdFrames ≤ s.heads[h].sinceLoss) :
    s.baseChoice d = (.fill, none) := by
  rw [State.baseChoice, hbase]
  refine (if_neg hlock).trans (if_neg fun hheld => ?_)
  obtain ⟨hframe, hrecent⟩ := Bool.and_eq_true_iff.1 hheld
  rcases hnone with hnone | hlong
  · rw [hnone] at hframe
    exact absurd hframe (by decide)
  · exact absurd (of_decide_eq_true hrecent) (Nat.not_lt.2 hlong)

theorem State.baseChoice_cases {d : Display} {h : Head} {s : State} (hbase : s.active.displays[d].base = some h) :
    s.baseChoice d = (.fill, none) ∨ ∃ output, output ≠ .fill ∧ s.baseChoice d = (output, s.heads[h].latest) := by
  by_cases hlock : s.heads[h].lock = .locked
  · exact .inr ⟨.live, by decide, State.baseChoice_locked hbase hlock⟩
  by_cases hframe : s.heads[h].latest = none
  · exact .inl (State.baseChoice_expired hbase hlock (.inl hframe))
  by_cases hrecent : s.heads[h].sinceLoss < s.desk.holdFrames
  · exact .inr ⟨.held, by decide, State.baseChoice_held hbase hlock hframe hrecent⟩
  · exact .inl (State.baseChoice_expired hbase hlock (.inr (Nat.not_lt.1 hrecent)))

theorem State.baseChoice_fill {d : Display} {s : State} (hfill : (s.baseChoice d).1 = .fill) : (s.baseChoice d).2 = none := by
  cases hbase : s.active.displays[d].base with
  | none => rw [State.baseChoice_none hbase]
  | some h =>
    rcases State.baseChoice_cases hbase with he | ⟨output, hne, he⟩
    · rw [he]
    · rw [he] at hfill
      exact absurd hfill hne

theorem State.baseChoice_shown {d : Display} {h : Head} {s : State} (hbase : s.active.displays[d].base = some h)
    (hshown : (s.baseChoice d).1 ≠ .fill) : (s.baseChoice d).2 = s.heads[h].latest := by
  rcases State.baseChoice_cases hbase with he | ⟨output, -, he⟩
  · rw [he] at hshown
    exact absurd rfl hshown
  · rw [he]

theorem State.baseCost_none {d : Display} {s : State} (hbase : s.active.displays[d].base = none) : s.baseCost d = 0 := by
  rw [State.baseCost, hbase]

theorem State.baseCost_some {d : Display} {h : Head} {s : State} (hbase : s.active.displays[d].base = some h) :
    s.baseCost d = ceilDiv (min ((s.baseGeometry d h).h / 2 ^ s.active.displays[d].shift) s.active.displays[d].height) 16 := by
  rw [State.baseCost, hbase]

theorem State.advanceLoss_none {d : Display} {s : State} (hbase : s.active.displays[d].base = none) : s.advanceLoss d = s := by
  rw [State.advanceLoss, hbase]

theorem State.advanceLoss_locked {d : Display} {h : Head} {s : State} (hbase : s.active.displays[d].base = some h)
    (hlock : s.heads[h].lock = .locked) : s.advanceLoss d = s := by
  rw [State.advanceLoss, hbase]
  exact State.modHead_unchanged (if_pos hlock)

theorem State.advanceLoss_unlocked {d : Display} {h : Head} {s : State} (hbase : s.active.displays[d].base = some h)
    (hlock : s.heads[h].lock ≠ .locked) :
    s.advanceLoss d = s.modHead h fun hd => { hd with sinceLoss := min 65535 (hd.sinceLoss + 1) } := by
  rw [State.advanceLoss, hbase]
  exact State.modHead_congr (if_neg hlock)

/-- Only the frames since loss of the base head can advance. -/
theorem State.advanceLoss_cases (d : Display) (s : State) : s.advanceLoss d = s ∨
    ∃ h : Head, s.active.displays[d].base = some h ∧
      s.advanceLoss d = s.modHead h fun hd => { hd with sinceLoss := min 65535 (hd.sinceLoss + 1) } := by
  cases hbase : s.active.displays[d].base with
  | none => exact .inl (State.advanceLoss_none hbase)
  | some h =>
    by_cases hlock : s.heads[h].lock = .locked
    · exact .inl (State.advanceLoss_locked hbase hlock)
    · exact .inr ⟨h, rfl, State.advanceLoss_unlocked hbase hlock⟩

theorem State.advanceLoss_eq (d : Display) (s : State) : s.advanceLoss d = { s with heads := (s.advanceLoss d).heads } := by
  rcases s.advanceLoss_cases d with he | ⟨h, -, he⟩
  · rw [he]
  · rw [he]
    rfl

theorem State.advanceLoss_windows (d : Display) (s : State) : (s.advanceLoss d).windows = s.windows := by
  rw [s.advanceLoss_eq d]

theorem State.advanceLoss_desk (d : Display) (s : State) : (s.advanceLoss d).desk = s.desk := by
  rw [s.advanceLoss_eq d]

theorem State.advanceLoss_otherHead {d : Display} {k : Head} {s : State} (h : s.active.displays[d].base ≠ some k) :
    (s.advanceLoss d).heads[k] = s.heads[k] := by
  rcases s.advanceLoss_cases d with he | ⟨b, hbase, he⟩
  · rw [he]
  · rw [he, State.modHead_heads, upd_get_ne _ _ _ _ fun e => h (by rw [hbase, e])]

theorem State.advanceLoss_scene (d : Display) (s : State) : (s.advanceLoss d).scene = s.scene := by
  rcases s.advanceLoss_cases d with he | ⟨h, -, he⟩
  · rw [he]
  · rw [he, State.modHead_scene (f := fun hd => { hd with sinceLoss := min 65535 (hd.sinceLoss + 1) }) rfl]

theorem State.advanceLoss_latest (d : Display) (k : Head) (s : State) : (s.advanceLoss d).heads[k].latest = s.heads[k].latest := by
  rcases s.advanceLoss_cases d with he | ⟨h, -, he⟩
  · rw [he]
  · rw [he, State.modHead_heads, upd_get_eq]
    split <;> rfl

/-- The advance leaves what a candidate is settled to. -/
theorem State.advanceLoss_settledContent (d : Display) (q : Window × Bool) (s : State) :
    (s.advanceLoss d).settledContent q = s.settledContent q := by
  refine State.settledContent_congr (by rw [State.advanceLoss_windows]) ?_
  have hactive : (s.advanceLoss d).active = s.active := by rw [s.advanceLoss_eq d]
  exact (State.advanceLoss_latest ..).trans (congrArg (fun L : Layout => s.heads[L.windows[q.1].source].latest) hactive)

/-! ## The candidates (R137) -/

theorem rotation_eq (start : Fin 8) : rotation start = (List.finRange 8).map fun i => start + i := rfl

theorem rotation_nodup (start : Fin 8) : (rotation start).Nodup := by
  rw [rotation_eq]
  exact (List.nodup_finRange 8).map (add_right_injective start)

theorem mem_rotation (start i : Fin 8) : i ∈ rotation start := by
  rw [rotation_eq]
  exact List.mem_map.2 ⟨i - start, List.mem_finRange _, add_sub_cancel start i⟩

/-- A window takes part in the frames of d: shown on it, enabled, and not clipped away. -/
abbrev State.TakesPart (s : State) (d : Display) (w : Window) : Prop :=
  s.active.windows[w].display = d ∧ s.active.windows[w].enabled = true ∧ s.windows[w].shown = true ∧ (s.windowRect w).isEmpty = false

theorem State.candidates_eq (d : Display) (s : State) :
    s.candidates d = (rotation s.displays[d].rotation).filter fun w => decide (s.TakesPart d w) := by
  refine congrArg (fun c => (rotation s.displays[d].rotation).filter c) (funext fun w => ?_)
  simp [State.windowDrawn, Bool.decide_and, Bool.and_assoc]

theorem State.mem_candidates {d : Display} {w : Window} {s : State} : w ∈ s.candidates d ↔ s.TakesPart d w := by
  rw [State.candidates_eq, List.mem_filter, decide_eq_true_iff]
  exact and_iff_right (mem_rotation _ w)

theorem State.candidates_nodup (d : Display) (s : State) : (s.candidates d).Nodup := (rotation_nodup _).filter _

/-! ## The rotation start (R141) -/

theorem nextRotation_refused {present w : Window} {pre post : List (Window × Bool)} (h : ∀ q ∈ pre, q.2 = true) :
    nextRotation present (pre ++ (w, false) :: post) = w := by
  have hpre : (pre.find? fun q => !q.2) = none := List.find?_eq_none.2 fun q hq => by simp [h q hq]
  unfold nextRotation
  rw [List.find?_append, hpre]
  rfl

/-- With no candidate refused, the place in the list counts alone. -/
theorem nextRotation_granted {present : Window} {tried : List (Window × Bool)} (h : ∀ q ∈ tried, q.2 = true) :
    (∀ (a b : Window) (rest : List Window), tried.map Prod.fst = a :: b :: rest → nextRotation present tried = b) ∧
    (∀ a : Window, tried.map Prod.fst = [a] → nextRotation present tried = a) ∧
    (tried.map Prod.fst = [] → nextRotation present tried = present) := by
  have hnone : (tried.find? fun q => !q.2) = none := List.find?_eq_none.2 fun q hq => by simp [h q hq]
  unfold nextRotation
  rw [hnone]
  match tried with
  | [] => simp
  | [q] => simp
  | _ :: q :: _ => simp

end Sys2Proof.Machine
end

section
/-! PROOFS. The display frame start as a whole (O37). -/

namespace Sys2Proof.Machine

/-! ## The frame composed (R133 to R142) -/

/-- The candidates of a frame start of d with whether each is granted (R138). -/
def State.tried (s : State) (d : Display) : List (Window × Bool) :=
  grants s.windowCost (s.budgets[d] - s.baseCost d) (s.candidates d)

/-- s with the frames since loss advanced and each candidate settled. -/
def State.settledFrame (s : State) (d : Display) : State := (s.advanceLoss d).settleAll (s.tried d)

/-- What the compositor holds of d after its frame start. -/
def State.drawnDisplay (s : State) (d : Display) (r : DisplayState) : DisplayState :=
  { r with
    output := (s.baseChoice d).1, rotation := nextRotation r.rotation (s.tried d)
    picture := (s.settledFrame d).picture d (s.baseChoice d).2 (s.tried d) }

theorem State.composeFrame_eq (d : Display) (s : State) :
    s.composeFrame d = (s.settledFrame d).modDisplay d (s.drawnDisplay d) := rfl

theorem State.displayFrame_awake {d : Display} {s : State} (henabled : s.active.displays[d].enabled = true) (hawake : s.deskState = .awake) :
    s.displayFrame d = s.composeFrame d := if_pos (by rw [henabled, hawake]; rfl)

theorem State.displayFrame_blank {d : Display} {s : State} (h : s.active.displays[d].enabled = false ∨ s.deskState = .idle) :
    s.displayFrame d = s.modDisplay d fun r => { r with output := .blank, picture := .blank } := by
  refine if_neg fun hdrawn => ?_
  obtain ⟨henabled, hawake⟩ := Bool.and_eq_true_iff.1 hdrawn
  rcases h with h | h
  · exact absurd (h.symm.trans henabled) (by decide)
  · exact absurd (h.symm.trans (of_decide_eq_true hawake)) (by decide)

theorem exec_displayFrameStart {d : Display} {s : State} (hreset : s.resetAsserted = false) :
    exec (.displayFrameStart d) s = .next (s.displayFrame d) := running_eq s _ hreset

theorem State.tried_map_fst (d : Display) (s : State) : (s.tried d).map Prod.fst = s.candidates d := grants_map_fst ..

theorem State.tried_nodup (d : Display) (s : State) : ((s.tried d).map Prod.fst).Nodup := by
  rw [State.tried_map_fst]
  exact s.candidates_nodup d

/-- Up to the display itself, a frame start changes heads, windows, notice sets and frames sent. -/
theorem State.settledFrame_eq (d : Display) (s : State) : s.settledFrame d = { s with
    heads := (s.advanceLoss d).heads, windows := (s.settledFrame d).windows
    notices := (s.settledFrame d).notices, sent := (s.settledFrame d).sent } := by
  have honly : s.settledFrame d = { s.advanceLoss d with
      windows := (s.settledFrame d).windows, notices := (s.settledFrame d).notices, sent := (s.settledFrame d).sent } :=
    (s.advanceLoss d).settleAll_windowsOnly (s.tried d)
  rw [s.advanceLoss_eq d] at honly
  exact honly

theorem State.composeFrame_heads (d : Display) (s : State) : (s.composeFrame d).heads = (s.advanceLoss d).heads := by
  rw [State.composeFrame_eq, s.settledFrame_eq d]
  rfl

theorem State.composeFrame_displays (d : Display) (s : State) :
    (s.composeFrame d).displays = upd s.displays d (s.drawnDisplay d) := by
  rw [State.composeFrame_eq, State.modDisplay_displays, s.settledFrame_eq d]

theorem State.composeFrame_frame (d : Display) (s : State) : s.composeFrame d = { s with
    heads := (s.composeFrame d).heads, displays := (s.composeFrame d).displays, windows := (s.composeFrame d).windows
    notices := (s.composeFrame d).notices, sent := (s.composeFrame d).sent } := by
  rw [State.composeFrame_eq, s.settledFrame_eq d]
  rfl

theorem State.composeFrame_display (d : Display) (s : State) :
    (s.composeFrame d).displays[d] = s.drawnDisplay d s.displays[d] := by
  rw [State.composeFrame_displays, upd_get]

theorem State.composeFrame_otherDisplay {d e : Display} (s : State) (h : e ≠ d) :
    (s.composeFrame d).displays[e] = s.displays[e] := by
  rw [State.composeFrame_displays, upd_get_ne _ _ _ _ h]

theorem State.composeFrame_otherWindow {d : Display} {w : Window} {s : State} (h : w ∉ s.candidates d) :
    (s.composeFrame d).windows[w] = s.windows[w] := by
  have hother : (s.settledFrame d).windows[w] = (s.advanceLoss d).windows[w] :=
    State.settleAll_other _ (by rw [State.tried_map_fst]; exact h)
  rw [State.composeFrame_eq, State.modDisplay_windows, hother, State.advanceLoss_windows]

/-- Each candidate is settled by its own grant from the state the frame start finds. -/
theorem State.composeFrame_window {d : Display} {s : State} : ∀ q ∈ s.tried d,
    (s.composeFrame d).windows[q.1] = (s.settleWindow q).windows[q.1] := fun q hq => by
  have hsettled := State.settleAll_window (s.advanceLoss d) (s.tried_nodup d) q hq
  rw [State.settledRecord, State.advanceLoss_settledContent, State.advanceLoss_desk] at hsettled
  rw [State.settleWindow_same]
  exact hsettled

theorem State.composeFrame_raised {d : Display} {s : State} : ∀ q ∈ s.tried d,
    (s.settleWindow q).windows[q.1].stale = true → s.windows[q.1].stale = false →
      has ((s.composeFrame d).subjects .windowStale) (eightSubject q.1) = true := fun q hq hset hclear => by
  rw [State.settleWindow_same] at hset
  refine State.settleAll_raised (s.advanceLoss d) (s.tried_nodup d) q hq ?_
  rw [State.advanceLoss_settledContent, State.advanceLoss_desk]
  exact State.turnsStale_of_settledRecord hset hclear

/-! ## The picture (R142) -/

/-- A window's rectangle depends on the scene only. -/
theorem State.windowRect_of_scene {s t : State} (h : t.scene = s.scene) (w : Window) : t.windowRect w = s.windowRect w := by
  have hactive : t.active = s.active := congrArg (fun c => c.plane.layout) h
  have hmeasured : ∀ k : Head, t.heads[k].measured = s.heads[k].measured := fun k => congrArg (fun c => c.plane.measured k) h
  simp only [State.windowRect, State.sourceGeometry, hactive, hmeasured]

theorem State.settledFrame_scene (d : Display) (s : State) : (s.settledFrame d).scene = s.scene :=
  (foldl_scene State.settleWindow_scene _ _).trans (s.advanceLoss_scene d)

theorem State.settledFrame_active (d : Display) (s : State) : (s.settledFrame d).active = s.active :=
  congrArg (fun c => c.plane.layout) (s.settledFrame_scene d)

/-- The images of a picture: one for each tried window, in window-number order. -/
def State.images (s : State) (tried : List (Window × Bool)) : List WindowImage :=
  ((List.finRange 8).filter fun w => tried.any fun q => q.1 = w).map s.windowImage

theorem State.images_windows (s : State) (tried : List (Window × Bool)) :
    (s.images tried).map WindowImage.window = (List.finRange 8).filter fun w => (tried.map Prod.fst).contains w := by
  have himage : WindowImage.window ∘ s.windowImage = id := rfl
  rw [State.images, List.map_map, himage, List.map_id]
  refine congrArg (fun c => (List.finRange 8).filter c) (funext fun w => ?_)
  rw [Bool.eq_iff_iff]
  simp

theorem State.windowImage_of_mem {tried : List (Window × Bool)} {im : WindowImage} {s : State} (h : im ∈ s.images tried) :
    im = s.windowImage im.window := by
  obtain ⟨w, -, rfl⟩ := List.mem_map.1 h
  rfl

theorem State.drawnDisplay_picture (d : Display) (s : State) (r : DisplayState) : (s.drawnDisplay d r).picture =
    .drawn s.active.displays[d].width s.active.displays[d].height (s.baseChoice d).2 s.active.displays[d].shift
      ((s.settledFrame d).images (s.tried d)) := by
  rw [State.drawnDisplay, State.picture, s.settledFrame_active d]
  rfl

end Sys2Proof.Machine

open Sys2Proof Sys2Proof.Machine

/-- Settles O37, part by part: the base and its frames since loss (`State.baseChoice`, `State.advanceLoss`), the candidates, each settled as
it would be alone (`State.settleAll_window`), the rotation start, and the picture. -/
theorem displayFrameStartChoosesTheOutput : Obligations.DisplayFrameStartChoosesTheOutput := by
  intro d s hreset
  rw [exec_displayFrameStart hreset]
  refine ⟨fun h => congrArg _ (State.displayFrame_blank h), fun henabled hawake => ?_⟩
  rw [State.displayFrame_awake henabled hawake]
  have hheads := s.composeFrame_heads d
  have hdisplay := s.composeFrame_display d
  have houtput : (s.composeFrame d).displays[d].output = (s.baseChoice d).1 := congrArg DisplayState.output hdisplay
  have hrotation : (s.composeFrame d).displays[d].rotation = nextRotation s.displays[d].rotation (s.tried d) :=
    congrArg DisplayState.rotation hdisplay
  refine ⟨_, rfl, s.composeFrame_frame d, fun e he => s.composeFrame_otherDisplay he, fun w hw => State.composeFrame_otherWindow hw,
    fun hbase => ?_, fun h hbase => ?_, fun w => State.mem_candidates, s.candidates_eq d, State.baseCost_none, fun h hbase => ?_, ?_, ?_⟩
  · rw [houtput, hheads, State.baseChoice_none hbase, State.advanceLoss_none hbase]
    exact ⟨rfl, rfl⟩
  · rw [houtput, hheads]
    refine ⟨fun k hk => State.advanceLoss_otherHead fun e => hk (Option.some.inj (e.symm.trans hbase)), fun hlock => ?_, fun hlock => ?_⟩
    · rw [State.baseChoice_locked hbase hlock, State.advanceLoss_locked hbase hlock]
      exact ⟨rfl, rfl⟩
    · rw [State.advanceLoss_unlocked hbase hlock]
      refine ⟨upd_get .., fun hframe hrecent => ?_, fun hnone => ?_⟩
      · rw [State.baseChoice_held hbase hlock hframe hrecent]
      · rw [State.baseChoice_expired hbase hlock hnone]
  · rw [State.baseCost_some hbase, State.baseGeometry]
    cases s.heads[h].measured <;> rfl
  · refine ⟨State.composeFrame_window, State.composeFrame_raised, fun pre post w htried hpre => ?_, fun hgranted => ?_⟩
    · have htried' : s.tried d = pre ++ (w, false) :: post := htried
      rw [hrotation, htried', nextRotation_refused hpre]
    · rw [hrotation, ← s.tried_map_fst d]
      exact nextRotation_granted hgranted
  · refine ⟨(s.baseChoice d).2, (s.settledFrame d).images (s.tried d), ?_, fun hfill => ?_, fun h hbase hshown => ?_, ?_, fun im him => ?_⟩
    · rw [hdisplay, State.drawnDisplay_picture]
    · exact State.baseChoice_fill (houtput.symm.trans hfill)
    · exact State.baseChoice_shown hbase (houtput ▸ hshown)
    · rw [State.images_windows, State.tried_map_fst]
    · have him' := State.windowImage_of_mem him
      refine ⟨(congrArg WindowImage.rect him').trans (State.windowRect_of_scene (s.settledFrame_scene d) _),
        (congrArg WindowImage.shift him').trans ?_, congrArg WindowImage.content him'⟩
      exact congrArg (fun L => L.windows[im.window].shift) (s.settledFrame_active d)
end

section
/-! PROOFS. The idle timer: its start at the release of RESET_N (O5), and its expiry (O33). -/

namespace Sys2Proof.Machine

/-! ## RESET_N_RELEASE (R156, R160, R176) -/

theorem exec_resetNRelease (s : State) : exec .resetNRelease s = .next s.releaseReset := rfl

theorem State.releaseReset_asserted {s : State} (h : s.resetAsserted = true) : s.releaseReset =
    { s with resetAsserted := false, idleTimer := if s.desk.deskIdle = 0 then none else some s.desk.deskIdle } := if_pos h

theorem State.releaseReset_running {s : State} (h : s.resetAsserted = false) : s.releaseReset = s := if_neg (by simp [h])

/-! ## What keeps an idle desk awake (R158) -/

/-- The kinds stand in the notice record in their priority order. -/
theorem noticeKinds_map_index : noticeKinds.map NoticeKind.index = List.finRange 8 := rfl

theorem State.anyNotice_iff {s : State} : s.anyNotice = true ↔ ∃ k : Fin 8, s.notices[k] ≠ 0 := by
  have hrecord : s.anyNotice = (noticeKinds.map NoticeKind.index).any fun k => s.notices[k] != 0 := List.any_map.symm
  rw [hrecord, noticeKinds_map_index]
  simp only [List.any_eq_true, List.mem_finRange, true_and, bne_iff_ne]

theorem State.staysAwake_iff {s : State} : s.staysAwake = true ↔
    (∃ t : Target, s.targets[t].power = .waking) ∨ s.holdOwner ≠ none ∨ ∃ k : Fin 8, s.notices[k] ≠ 0 := by
  rw [State.staysAwake, Bool.or_eq_true, Bool.or_eq_true, State.anyNotice_iff, Option.isSome_iff_ne_none, or_assoc]
  simp only [List.any_eq_true, List.mem_finRange, true_and, decide_eq_true_eq]

/-! ## IDLE_TIMER_EXPIRY (R158) -/

/-- IDLE_TIMER_EXPIRY of a running timer executed. -/
theorem exec_idleTimerExpiry {v : Nat} {s : State} (hreset : s.resetAsserted = false) (htimer : s.idleTimer = some v) :
    exec .idleTimerExpiry s = .next (if s.staysAwake then { s with idleTimer := some s.desk.deskIdle }
      else { s with deskState := .idle, idleTimer := none }) := by
  refine (running_eq s _ hreset).trans ?_
  rw [State.idleExpiry, if_neg (by simp [htimer])]

end Sys2Proof.Machine

open Sys2Proof Sys2Proof.Machine

/-- Settles O5, by whether RESET_N is asserted and whether desk idle is above 0. -/
theorem resetReleaseStartsTheIdleTimer : Obligations.ResetReleaseStartsTheIdleTimer := by
  intro s
  rw [exec_resetNRelease]
  refine ⟨fun h hidle => ?_, fun h hidle => ?_, fun h => ?_⟩
  · rw [State.releaseReset_asserted h, if_neg (Nat.pos_iff_ne_zero.1 hidle)]
  · rw [State.releaseReset_asserted h, if_pos hidle]
  · rw [State.releaseReset_running h]

/-- Settles O33, by whether anything keeps the desk awake (`State.staysAwake_iff`). -/
theorem idleTimerRestsTheDesk : Obligations.IdleTimerRestsTheDesk := by
  intro v s hreset htimer
  rw [exec_idleTimerExpiry hreset htimer]
  refine ⟨fun hawake => ?_, fun hwaking hhold hnotice => ?_⟩
  · rw [if_pos (State.staysAwake_iff.2 hawake)]
  · have hrests : ¬s.staysAwake = true := by
      rw [State.staysAwake_iff]
      rintro (⟨t, ht⟩ | hopen | ⟨k, hk⟩)
      · exact hwaking t ht
      · exact hopen hhold
      · exact hk (hnotice k)
    rw [if_neg hrests]
end

section
/-! PROOFS. The WAKE command (O47). -/

namespace Sys2Proof.Machine

/-- WAKE of a target named by its number: a wake request, answered with the power state found (R150, R171). -/
theorem State.doWake_eq {t u : Target} {b : Byte} {s : State} (hb : b.toNat = u.val) :
    State.doWake t [b] s = (s.wakeRequest u, okWith [byteOf s.targets[u].power.code]) := by
  have hu : numOpt 8 (arg [b] 1) = some u := numOpt_of_eq hb
  simp only [State.doWake, hu]

theorem State.doWake_badValue {t : Target} {b : Byte} {s : State} (hb : 7 < b.toNat) : State.doWake t [b] s = (s, badArgument 1) := by
  have hu : numOpt 8 (arg [b] 1) = none := numOpt_of_ge hb
  simp only [State.doWake, hu]

/-- A served WAKE of a target that is not SUSPENDED only answers. -/
theorem State.Serves.exec_wake_refused {s : State} {t u : Target} {f : ControlFrame} {b : Byte} {w : Power} (h : s.Serves t f .wake)
    (hargs : f.args = [b]) (hb : b.toNat = u.val) (hp : s.targets[u].power = w) (hw : w ≠ .suspended) :
    exec .wake s = .next (s.answered t f .ok [byteOf w.code]) := by
  subst hp
  have hstays : State.wakeRequest u { s with ctrlLast := t } = { s with ctrlLast := t } := State.wakeRequest_refused hw
  refine h.control_refused State.doWake ?_
  rw [hargs, State.doWake_eq hb, hstays]
  rfl

/-- A served WAKE of a SUSPENDED target makes the wake request, then answers. -/
theorem State.Serves.exec_wake_suspended {s : State} {t u : Target} {f : ControlFrame} {b : Byte} (h : s.Serves t f .wake)
    (hargs : f.args = [b]) (hb : b.toNat = u.val) (hp : s.targets[u].power = .suspended) :
    exec .wake s = .next ((State.wakeRequest u { s with ctrlLast := t }).answered t f .ok [2]) := by
  have honly := State.wakeRequest_focusOnly u { s with ctrlLast := t }
  have hattached := ((honly.2.2 t).1).trans h.1.2.2.1
  have hlast := (congrArg State.ctrlLast honly.1 :)
  have hbody := State.doWake_eq (t := t) (s := { s with ctrlLast := t }) hb
  rw [← hargs, hp] at hbody
  exact (h.running_control State.doWake hbody).trans (congrArg Host.Outcome.next (State.reply_eq_answered hattached hlast))

end Sys2Proof.Machine

open Sys2Proof Sys2Proof.Machine

/-- Settles O47, by the power state that the wake request finds. -/
theorem wakeCommandStartsASuspendedTarget : Obligations.WakeCommandStartsASuspendedTarget := by
  intro t u f b s h hargs
  refine ⟨fun hb => ?_, fun hb => ⟨fun hp ha => ?_, fun hp => ?_, fun hp => ?_, fun hp => ?_⟩⟩
  · exact h.control_refused State.doWake (by rw [hargs, State.doWake_badValue hb]; rfl)
  · rw [h.exec_wake_suspended hargs hb hp, State.wakeRequest_sends (s := { s with ctrlLast := t }) hp ha]
    rfl
  all_goals exact h.exec_wake_refused hargs hb hp (by decide)
end

section
/-! SUPPORT. The charter of a state, its straps and the tables with policy-class fields, and the events that leave it alone (R165, R167). -/

namespace Sys2Proof.Machine

/-! ## The charter: what R165 to R167 speak of -/

/-- The sampled straps, and the tables with policy-class fields (R36, R62, R165, R166). -/
structure Charter where
  cfgt      : Target
  lockStrap : Bool
  policies  : Vector TargetPolicy 8
  consoles  : Vector ConsoleEntry 4
  hotkeys   : Vector HotkeyEntry 24

def State.charter (s : State) : Charter := ⟨s.cfgt, s.lockStrap, s.policies, s.consoles, s.hotkeys⟩

/-- From s to t the charter stays. -/
def State.SameCharter (s t : State) : Prop := t.charter = s.charter

theorem State.SameCharter.refl (s : State) : s.SameCharter s := rfl

theorem State.SameCharter.trans {s t u : State} (h : s.SameCharter t) (k : t.SameCharter u) : s.SameCharter u := Eq.trans k h

theorem State.FocusChangeOnly.charter {s t : State} (h : s.FocusChangeOnly t) : s.SameCharter t := (congrArg State.charter h.1 :)

theorem State.Delivers.charter {s t : State} (h : s.Delivers t) : s.SameCharter t := (congrArg State.charter h :)

theorem State.BooksOnly.charter {s t : State} (h : s.BooksOnly t) : s.SameCharter t := (congrArg State.charter h :)

theorem ite_sameCharter {c : Prop} [Decidable c] {s a b : State} (ha : s.SameCharter a) (hb : s.SameCharter b) :
    s.SameCharter (if c then a else b) := by
  split
  · exact ha
  · exact hb

theorem foldl_sameCharter {α : Type} {f : State → α → State} (h : ∀ (s : State) (a : α), s.SameCharter (f s a)) (l : List α) (s : State) :
    s.SameCharter (l.foldl f s) := by
  induction l generalizing s with
  | nil => exact .refl s
  | cons a l ih => exact (h s a).trans (ih _)

/-! ## Presses, releases and hotkey actions -/

theorem State.bookPress_charter (p : Port) (t : Target) (i : Item) (s : State) : s.SameCharter (s.bookPress p t i) :=
  (s.wokenByPress_delivers t).charter.trans (congrArg State.charter (s.bookPress_eq p t i) :)

theorem State.keyPress_charter (p : Port) (t : Target) (i : KeyItem) (s : State) : s.SameCharter (s.keyPress p t i) :=
  (s.bookPress_charter p t i.item).trans (State.announceView_delivers ..).charter

theorem State.keyRelease_charter (p : Port) (i : KeyItem) (s : State) : s.SameCharter (s.keyRelease p i) := by
  unfold State.keyRelease
  split
  · rfl
  · split
    · exact (State.modKeys_focusOnly ..).charter.trans (State.announceView_delivers ..).charter
    · rfl

theorem State.focusAction_charter (e : HotkeyEntry) (m : ModSet) (t : Target) (s : State) : s.SameCharter (s.focusAction e m t) :=
  ite_sameCharter (.refl s) (s.directed_focusOnly ..).charter

theorem State.applyPreset_charter (e : HotkeyEntry) (m : ModSet) (s : State) : s.SameCharter (s.applyPreset e m) := by
  have hshown : ∀ set, s.SameCharter (s.setShown set) := fun _ => rfl
  unfold State.applyPreset
  dsimp only
  split
  · exact ite_sameCharter (hshown _) ((hshown _).trans (State.reevaluate_focusOnly ..).charter)
  · exact ite_sameCharter ((hshown _).trans (State.reevaluate_focusOnly ..).charter)
      ((hshown _).trans (State.directed_focusOnly ..).charter)

theorem State.fire_charter (e : HotkeyEntry) (m : ModSet) (s : State) : s.SameCharter (s.fire e m) := by
  unfold State.fire
  split
  case h_1 => exact s.focusAction_charter ..
  case h_2 =>
    split
    · exact s.focusAction_charter ..
    · rfl
  case h_3 =>
    split
    · exact s.focusAction_charter ..
    · rfl
  case h_4 | h_5 | h_9 => rfl
  case h_6 => exact ite_sameCharter (State.SameCharter.trans rfl (State.reevaluate_focusOnly ..).charter) (.refl s)
  case h_7 => exact s.applyPreset_charter e m
  case h_8 => exact (s.wakeRequest_delivers _).charter

/-! ## The detector and the merge engine -/

theorem State.settlePress_charter (e : HotkeyEntry) (p : Port) (i : KeyItem) (s : State) : s.SameCharter (s.settlePress e p i) :=
  ite_sameCharter (s.keyPress_charter ..) rfl

theorem State.pressIdle_charter (p : Port) (i : KeyItem) (held : ModSet) (s : State) : s.SameCharter (s.pressIdle p i held).1 := by
  have hset : ∀ d, s.SameCharter (s.setDetector d) := fun _ => rfl
  unfold State.pressIdle
  split
  · exact (hset _).trans ((State.fire_charter ..).trans (State.settlePress_charter ..))
  · exact (hset _).trans (State.keyPress_charter ..)

theorem State.detectPress_charter (p : Port) (i : KeyItem) (held : ModSet) (s : State) : s.SameCharter (s.detectPress p i held).1 := by
  have hidle : s.SameCharter s.detectorIdle := rfl
  unfold State.detectPress
  split
  · exact s.pressIdle_charter ..
  · unfold State.pressTapWait
    dsimp only
    split
    · exact hidle.trans ((State.fire_charter ..).trans (State.keyPress_charter ..))
    · exact hidle.trans (State.pressIdle_charter ..)
  · unfold State.pressLeader
    dsimp only
    split
    · exact hidle.trans ((State.fire_charter ..).trans (State.settlePress_charter ..))
    · exact hidle.trans (State.pressIdle_charter ..)

theorem State.detectRelease_charter (p : Port) (i : KeyItem) (s : State) : s.SameCharter (s.detectRelease p i) := by
  have hset : ∀ d, s.SameCharter (s.setDetector d) := fun _ => rfl
  unfold State.detectRelease
  exact (ite_sameCharter (hset _) (.refl s)).trans (State.keyRelease_charter ..)

theorem State.handRelease_charter (p : Port) (s : State) (i : KeyItem) : s.SameCharter (s.handRelease p i) :=
  ite_sameCharter (s.detectRelease_charter p i) (s.keyRelease_charter p i)

theorem State.handOnPress_charter (p : Port) (mods : ModSet) (a : State × Bool) (i : KeyItem) :
    a.1.SameCharter (State.handOnPress p mods a i).1 := by
  unfold State.handOnPress
  split
  · exact State.keyPress_charter ..
  · split
    · rfl
    · exact State.detectPress_charter ..

theorem State.foldl_handOnPress_charter (p : Port) (mods : ModSet) (l : List KeyItem) (a : State × Bool) :
    a.1.SameCharter (l.foldl (State.handOnPress p mods) a).1 := by
  induction l generalizing a with
  | nil => exact .refl _
  | cons i l ih => exact (State.handOnPress_charter p mods a i).trans (ih _)

theorem State.takeKeys_charter (p : Port) (mods : ModSet) (list : List Key) (swallowed : Bool) (s : State) :
    s.SameCharter (s.takeKeys p mods list swallowed) := by
  rw [State.takeKeys_eq]
  have hreleased : s.SameCharter (s.keysReleased p mods (cleanKeys list)) := foldl_sameCharter (State.handRelease_charter p) _ s
  have hpressed : ∀ x : State, x.SameCharter (s.keysPressed p mods (cleanKeys list) swallowed x) := fun x =>
    ite_sameCharter rfl (State.foldl_handOnPress_charter p mods _ (x, false))
  exact (hreleased.trans (hpressed _)).trans rfl

theorem State.completeRelease_charter (e : PointerEvent) (s : State) : s.SameCharter (s.completeRelease e) :=
  ite_sameCharter (s.reevaluate_focusOnly ..).charter (.refl s)

theorem State.accountButtons_charter (e : PointerEvent) (dest : Option Target) (s : State) : s.SameCharter (s.accountButtons e dest) :=
  (ite_sameCharter (.refl s) (s.wokenFor_focusOnly dest).charter).trans (s.accountButtons_booksOnly e dest).charter

theorem State.pointerEvent_charter (e : PointerEvent) (s : State) : s.SameCharter (s.pointerEvent e) := by
  have hreported : ∀ {x : State} (dest receiver q entry), s.SameCharter x → s.SameCharter (x.buttonsAndReport e dest receiver q entry) :=
    fun dest _ _ _ hx => (hx.trans (State.accountButtons_charter e dest _)).trans (State.buttonsAndReport_delivers ..).charter
  have hglide : ∀ g, s.SameCharter { s with glide := g } := fun _ => rfl
  unfold State.pointerEvent
  split
  · exact hreported _ _ _ _ (hglide _)
  · unfold State.detachedMotion State.followingMotion
    exact ite_sameCharter ((hreported _ _ _ _ (hglide _)).trans (State.completeRelease_charter ..))
      ((hreported _ _ _ _ (s.arrived_focusOnly e).charter).trans (State.completeRelease_charter ..))

theorem State.handButtonReleases_charter (p : Port) (b r : ButtonSet) (s : State) : s.SameCharter (s.handButtonReleases p b r) :=
  ite_sameCharter (.refl s) (s.pointerEvent_charter _)

theorem State.takeMotion_charter (p : Port) (dx dy wheel : Int) (b : ButtonSet) (swallowed : Bool) (s : State) :
    s.SameCharter (s.takeMotion p dx dy wheel b swallowed) := by
  refine State.SameCharter.trans (ite_sameCharter ?_ (s.pointerEvent_charter _)) rfl
  exact State.SameCharter.trans rfl (State.handButtonReleases_charter ..)

theorem State.takeReleaseAll_charter (p : Port) (s : State) : s.SameCharter (s.takeReleaseAll p) :=
  (foldl_sameCharter (State.handRelease_charter p) _ s).trans ((State.handButtonReleases_charter ..).trans rfl)

theorem State.mergeTake_charter (s : State) : s.SameCharter s.mergeTake := by
  unfold State.mergeTake
  split
  · rfl
  · split
    · rfl
    · rename_i p _ _ e rest _
      refine .trans (t := ({ s with mergeLast := p } : State).modPort p fun q => { q with fifo := rest }) rfl ?_
      cases e with
      | keys mods list m => exact State.takeKeys_charter ..
      | motion dx dy wheel b m => exact State.takeMotion_charter ..
      | releaseAll => exact State.takeReleaseAll_charter ..

/-! ## Console lanes, target lanes, power states -/

theorem State.storeFifo_charter (p : Port) (l : Option (List FifoEntry)) (s : State) : s.SameCharter (s.storeFifo p l) := by
  cases l <;> rfl

theorem State.arriveKeys_charter (p : Port) (mods : ModSet) (l : KeyList) (s : State) : s.SameCharter (s.arriveKeys p mods l) := by
  cases l with
  | rollover => rfl
  | keys l => exact State.SameCharter.trans rfl (State.storeFifo_charter ..)

theorem State.detachConsole_charter (p : Port) (s : State) : s.SameCharter (s.detachConsole p) := ite_sameCharter rfl (.refl s)

theorem State.teardown_charter (t : Target) (s : State) : s.SameCharter (s.teardown t) := (congrArg State.charter (s.teardown_eq t) :)

theorem State.detachTarget_charter (t : Target) (s : State) : s.SameCharter (s.detachTarget t) :=
  ite_sameCharter (s.teardown_charter t) (.refl s)

theorem State.attachTarget_charter (t : Target) (m : Mode) (s : State) : s.SameCharter (s.attachTarget t m) :=
  State.SameCharter.trans (ite_sameCharter (s.teardown_charter t) (.refl s)) rfl

theorem State.changeMode_charter (t : Target) (m : Mode) (s : State) : s.SameCharter (s.changeMode t m) :=
  (congrArg State.charter (s.changeMode_eq t m) :)

theorem State.offerControl_charter (t : Target) (f : ControlFrame) (s : State) : s.SameCharter (s.offerControl t f) :=
  ite_sameCharter (s.sendTo_delivers ..).charter rfl

theorem State.sendReport_charter (t : Target) (s : State) : s.SameCharter (s.sendReport t) := by
  unfold State.sendReport
  split
  · rfl
  · exact ite_sameCharter (.refl s) ((s.sendTo_delivers ..).charter.trans rfl)

theorem State.takePower_charter (t : Target) (v : PowerValue) (s : State) : s.SameCharter (s.takePower t v) := by
  unfold State.takePower
  split <;> rfl

theorem State.wakeExpiry_charter (t : Target) (s : State) : s.SameCharter (s.wakeExpiry t) :=
  ite_sameCharter (ite_sameCharter ((s.sendTo_delivers ..).charter.trans rfl) rfl) (.refl s)

theorem State.idleExpiry_charter (s : State) : s.SameCharter s.idleExpiry := ite_sameCharter (.refl s) (ite_sameCharter rfl rfl)

/-! ## Heads, displays and layouts -/

theorem State.headFrameEnd_charter (h : Head) (g : Geometry) (picture : Nat) (s : State) : s.SameCharter (s.headFrameEnd h g picture) := by
  have hhead : s.SameCharter (s.modHead h (HeadState.frameEnd g picture)) := rfl
  refine ite_sameCharter (hhead.trans ?_) hhead
  exact (ite_sameCharter (State.reevaluate_focusOnly ..).charter (.refl _)).trans (State.checkMismatch_delivers ..).charter

theorem State.displayFrame_charter (d : Display) (s : State) : s.SameCharter (s.displayFrame d) :=
  ite_sameCharter (congrArg State.charter (s.composeFrame_frame d) :) rfl

theorem State.completeLayout_charter (s : State) : s.SameCharter s.completeLayout := by
  rw [State.completeLayout_eq]
  have hinForce : s.SameCharter s.putInForce := rfl
  exact (hinForce.trans s.released_focusOnly.charter).trans (State.checkMismatch_delivers ..).charter

/-! ## Resets -/

theorem State.resetFocus_charter (s : State) : s.SameCharter s.resetFocus := by
  unfold State.resetFocus
  split <;> rfl

theorem State.hardReset_charter (s : State) : s.SameCharter s.hardReset :=
  State.SameCharter.trans (t := s.blocksReset) rfl (State.resetFocus_charter _)

theorem State.deskResetFocus_charter (s : State) : s.SameCharter s.deskResetFocus := by
  have hcleared : s.SameCharter ((List.finRange 8).foldl (fun acc t => acc.clearInput t) s) :=
    foldl_sameCharter (fun x t => (rfl : x.SameCharter (x.clearInput t))) _ s
  unfold State.deskResetFocus
  dsimp only
  generalize (List.finRange 8).foldl (fun acc t => acc.clearInput t) s = cleared at hcleared ⊢
  refine .trans (.trans (hcleared.trans ?_) (State.resetFocus_charter _)) (State.sendLeds_delivers ..).charter
  rfl

theorem State.takePart_charter (stage : ResetStage) (s : State) : s.SameCharter (s.takePart stage) := by
  cases stage with
  | focusUnit => exact s.deskResetFocus_charter
  | targetPorts =>
    have hemptied : s.SameCharter { s with targets := updAll s.targets fun _ p => p.deskReset } := rfl
    exact hemptied.trans (foldl_sameCharter (fun x t => (x.portEnd_focusOnly t).charter) _ _)
  | compositor | layoutStore | noticeRecord | answer => rfl

end Sys2Proof.Machine
end

section
/-! PROOFS. What a table write can do to the charter, and every step: some target keeps control permit, and under LOCK the policy fields
stay (O60). -/

namespace Sys2Proof.Machine

/-- From s to t some target's permit stays, and under LOCK the straps and every policy-class field do (R165, R166, R167). -/
structure State.KeepsCharter (s t : State) : Prop where
  permit : s.SomePermit → t.SomePermit
  locked : s.lockStrap = true → t.lockStrap = true ∧ t.cfgt = s.cfgt ∧ s.SamePolicy t

theorem State.SameCharter.keeps {s t : State} (h : s.SameCharter t) : s.KeepsCharter t := by
  simp only [State.SameCharter, State.charter, Charter.mk.injEq] at h
  obtain ⟨hcfgt, hlock, hpolicies, hconsoles, hhotkeys⟩ := h
  refine ⟨fun hs => ?_, fun hl => ⟨hlock.trans hl, hcfgt, hpolicies, hhotkeys, fun p => ?_⟩⟩
  · rw [State.SomePermit, hpolicies]
    exact hs
  · rw [hconsoles]

theorem State.KeepsCharter.refl (s : State) : s.KeepsCharter s := (State.SameCharter.refl s).keeps

theorem State.KeepsCharter.trans {s t u : State} (h : s.KeepsCharter t) (k : t.KeepsCharter u) : s.KeepsCharter u := by
  refine ⟨k.permit ∘ h.permit, fun hl => ?_⟩
  obtain ⟨hlock, hcfgt, hpolicies, hhotkeys, hpins⟩ := h.locked hl
  obtain ⟨klock, kcfgt, kpolicies, khotkeys, kpins⟩ := k.locked hlock
  exact ⟨klock, kcfgt.trans hcfgt, kpolicies.trans hpolicies, khotkeys.trans hhotkeys, fun p => (kpins p).trans (hpins p)⟩

/-! ## An accepted write (R63, R166, R167) -/

/-- The charter with an entry's written field values. -/
def Charter.write (e : TableEntry) (new : List Nat) (c : Charter) : Charter :=
  match e with
  | .targets u => { c with policies := upd c.policies u fun _ => TargetPolicy.ofFields new }
  | .consoles p => { c with consoles := upd c.consoles p fun _ => ConsoleEntry.ofFields new }
  | .hotkeys n => { c with hotkeys := upd c.hotkeys n fun _ => HotkeyEntry.ofFields new }
  | .tiers _ | .displays _ | .windows _ | .heads _ | .presets _ | .desk => c

theorem State.putTarget_charter (t u : Target) (size : DeskSize) (pol : TargetPolicy) (s : State) :
    (s.putTarget t u size pol).charter = { s.charter with policies := upd s.policies u fun _ => pol } := by
  rw [State.putTarget, State.editLayout_eq]
  rfl

theorem State.writeEntry_charter (t : Target) (e : TableEntry) (new : List Nat) (s : State) :
    (s.writeEntry t e new).charter = s.charter.write e new := by
  cases e with
  | tiers | displays | windows | heads =>
    rw [State.writeEntry, State.editLayout_eq]
    rfl
  | targets u =>
    rw [State.writeEntry, State.writeTarget_eq]
    split <;> exact State.putTarget_charter ..
  | consoles p =>
    obtain ⟨ports, sent, hw⟩ := State.writeConsole_eq p (ConsoleEntry.ofFields new) s
    rw [State.writeEntry, hw]
    rfl
  | hotkeys | presets | desk => rfl

/-- Under LOCK an accepted write carries every policy-class field as it stands (R167). -/
theorem State.accepted_policy {s : State} {t : Target} {e : TableEntry} {new : List Nat} (hlock : s.lockStrap = true)
    (h : s.refusal t e new = none) (hlen : new.length = e.specs.length) (k : Nat) {f : FieldSpec} (hk : e.specs[k]? = some f)
    (hf : f.cls = .policy) : fieldAt new k = fieldAt (s.fieldsOf t e) k := by
  have hcheck := State.accepted_field h hlen hk
  rw [fieldCheck, hf, hlock] at hcheck
  dsimp only at hcheck
  split at hcheck
  · cases hcheck
  · split at hcheck
    · cases hcheck
    · rename_i hsame
      simpa using hsame

theorem flagNum_eq_one (b : Bool) : decide (flagNum b = 1) = b := by cases b <;> rfl

theorem numOpt_optNum (o : Option Target) : numOpt 8 (optNum o) = o := by
  cases o with
  | none => rfl
  | some u => exact numOpt_of_eq rfl

/-- TARGETS policy fields as they stand are the policy as it stands. -/
theorem TargetPolicy.ofFields_same {new : List Nat} {size : DeskSize} {p : TargetPolicy}
    (h : ∀ k ∈ [2, 3, 4, 5], fieldAt new k = fieldAt (targetFields size p) k) : TargetPolicy.ofFields new = p := by
  obtain ⟨wakePolicy, wakeRetry, glideIn, permit⟩ := p
  have hwake : wakePolicyOf wakePolicy.code = wakePolicy := by cases wakePolicy <;> rfl
  simp only [TargetPolicy.ofFields, flagAt, h, List.mem_cons, true_or, or_true]
  simp only [targetFields, fieldAt, List.getD_cons_zero, List.getD_cons_succ, flagNum_eq_one, hwake]

/-- HOTKEYS fields as they stand are the entry as it stands. -/
theorem HotkeyEntry.ofFields_same {new : List Nat} {e : HotkeyEntry}
    (h : ∀ k ∈ [0, 1, 2, 3, 4, 5, 6, 7, 8], fieldAt new k = fieldAt e.fields k) : HotkeyEntry.ofFields new = e := by
  obtain ⟨enabled, kind, mods, sideBlind, trigger, action, argument, pass, lockedOk⟩ := e
  have hkind : hotkeyKindOf kind.code = kind := by cases kind <;> rfl
  have haction : hotkeyActions.getD action.code .leader = action := by cases action <;> rfl
  have htrigger : triggerOf trigger.code = trigger := by
    cases trigger with
    | key k => simp [triggerOf, KeyItem.code, k.isLt]
    | mod m => simp [triggerOf, KeyItem.code, numFin]
  simp only [HotkeyEntry.ofFields, flagAt, h, List.mem_cons, true_or, or_true]
  simp only [HotkeyEntry.fields, fieldAt, List.getD_cons_zero, List.getD_cons_succ, flagNum_eq_one, hkind, haction, htrigger,
    BitVec.ofNat_toNat, BitVec.setWidth_eq]

/-- Under LOCK an accepted write leaves every policy-class field (R167). -/
theorem State.writeEntry_locked {s : State} {t : Target} {e : TableEntry} {new : List Nat} (hlock : s.lockStrap = true)
    (h : s.refusal t e new = none) (hlen : new.length = e.specs.length) : s.SamePolicy (s.writeEntry t e new) := by
  have hpolicy := fun k f hk hf => State.accepted_policy hlock h hlen k (f := f) hk hf
  have hcharter := s.writeEntry_charter t e new
  generalize s.writeEntry t e new = s1 at hcharter ⊢
  unfold State.charter Charter.write at hcharter
  cases e with
  | tiers | displays | windows | heads | presets | desk =>
    simp only [Charter.mk.injEq] at hcharter
    obtain ⟨-, -, hpolicies, hconsoles, hhotkeys⟩ := hcharter
    exact ⟨hpolicies, hhotkeys, fun p => by rw [hconsoles]⟩
  | targets u =>
    simp only [Charter.mk.injEq] at hcharter
    obtain ⟨-, -, hpolicies, hconsoles, hhotkeys⟩ := hcharter
    refine ⟨hpolicies.trans (upd_eq_self _ _ _ ?_), hhotkeys, fun p => by rw [hconsoles]⟩
    refine TargetPolicy.ofFields_same (size := (s.layoutFor t).desktops[u]) fun k hk => ?_
    fin_cases hk <;> exact hpolicy _ _ rfl rfl
  | consoles p =>
    simp only [Charter.mk.injEq] at hcharter
    obtain ⟨-, -, hpolicies, hconsoles, hhotkeys⟩ := hcharter
    refine ⟨hpolicies, hhotkeys, fun q => ?_⟩
    rw [hconsoles, upd_get_eq]
    split
    · rename_i heq
      subst heq
      have hpin : fieldAt new 0 = optNum s.consoles[q].pin := hpolicy 0 _ rfl rfl
      rw [ConsoleEntry.ofFields, hpin, numOpt_optNum]
    · rfl
  | hotkeys n =>
    simp only [Charter.mk.injEq] at hcharter
    obtain ⟨-, -, hpolicies, hconsoles, hhotkeys⟩ := hcharter
    refine ⟨hpolicies, hhotkeys.trans (upd_eq_self _ _ _ ?_), fun p => by rw [hconsoles]⟩
    refine HotkeyEntry.ofFields_same fun k hk => ?_
    fin_cases hk <;> exact hpolicy _ _ rfl rfl

/-- A TARGETS write is accepted only if it grants the permit or another target has it (R166). -/
theorem State.accepted_permit {s : State} {t u : Target} {new : List Nat} (h : s.refusal t (.targets u) new = none)
    (hlen : new.length = targetSpecs.length) : flagAt new 5 = true ∨ ∃ v : Target, v ≠ u ∧ s.policies[v].permit = true := by
  have hfurther : s.furtherCheck (.targets u) new 6 = true := (State.accepted_ok h hlen 5 rfl (by decide)).2
  simpa [State.furtherCheck] using hfurther

theorem State.writeEntry_somePermit {s : State} {t : Target} {e : TableEntry} {new : List Nat} (h : s.refusal t e new = none)
    (hlen : new.length = e.specs.length) (hs : s.SomePermit) : (s.writeEntry t e new).SomePermit := by
  have hpolicies := congrArg Charter.policies (s.writeEntry_charter t e new)
  replace hpolicies : (s.writeEntry t e new).policies = _ := hpolicies
  rw [State.SomePermit, hpolicies]
  cases e with
  | targets u =>
    rcases State.accepted_permit h hlen with hgrant | ⟨v, hne, hv⟩
    · exact ⟨u, (congrArg TargetPolicy.permit (upd_get ..)).trans hgrant⟩
    · exact ⟨v, (congrArg TargetPolicy.permit (upd_get_ne _ _ _ _ hne)).trans hv⟩
  | tiers | displays | windows | heads | presets | desk | consoles | hotkeys => exact hs

theorem State.writeEntry_keepsCharter {s : State} {t : Target} {e : TableEntry} {new : List Nat} (h : s.refusal t e new = none)
    (hlen : new.length = e.specs.length) : s.KeepsCharter (s.writeEntry t e new) := by
  have hstraps := (State.writeEntry_frame t e new s).1
  exact ⟨State.writeEntry_somePermit h hlen, fun hlock =>
    ⟨(congrArg State.lockStrap hstraps :).trans hlock, (congrArg State.cfgt hstraps :), State.writeEntry_locked hlock h hlen⟩⟩

/-! ## The control engine (R163) -/

theorem State.reply_charter (t : Target) (f : ControlFrame) (a : Answer) (s : State) : s.SameCharter (s.reply t f a) :=
  (s.reply_delivers t f a).charter

theorem State.takeFrame_keepsCharter (c : Option ControlCommand) {run : Target → ControlFrame → State → State}
    (h : ∀ (t : Target) (f : ControlFrame) (s : State), s.KeepsCharter (run t f s)) (s : State) : s.KeepsCharter (s.takeFrame c run) := by
  unfold State.takeFrame
  split
  · exact .refl s
  split
  · exact .refl s
  rename_i t f _
  split
  · have hlast : s.KeepsCharter { s with ctrlLast := t } := State.SameCharter.keeps rfl
    dsimp only
    split
    · exact hlast.trans (h t f _)
    · exact hlast.trans (State.reply_charter ..).keeps
  · exact .refl s

theorem State.control_keepsCharter (c : Option ControlCommand) {body : Target → List Byte → State → State × Answer}
    (h : ∀ (t : Target) (args : List Byte) (s : State), s.KeepsCharter (body t args s).1) (s : State) : s.KeepsCharter (s.control c body) :=
  State.takeFrame_keepsCharter c (fun t f x => (h t f.args x).trans (State.reply_charter ..).keeps) s

theorem State.doTableWrite_keepsCharter (t : Target) (args : List Byte) (s : State) : s.KeepsCharter (s.doTableWrite t args).1 := by
  unfold State.doTableWrite
  split
  · dsimp only
    split
    · exact .refl s
    · rename_i h
      exact State.writeEntry_keepsCharter h (splitFields_length ..)
  · exact .refl s

theorem State.doTableRead_charter (t : Target) (args : List Byte) (s : State) : s.SameCharter (s.doTableRead t args).1 := by
  unfold State.doTableRead
  split <;> rfl

theorem State.doLayoutHold_charter (t : Target) (args : List Byte) (s : State) : s.SameCharter (s.doLayoutHold t args).1 := by
  unfold State.doLayoutHold
  split
  · rfl
  · split <;> rfl

theorem State.doLayoutAbandon_charter (t : Target) (args : List Byte) (s : State) : s.SameCharter (s.doLayoutAbandon t args).1 := by
  unfold State.doLayoutAbandon
  split <;> rfl

theorem State.doLayoutRelease_charter (t : Target) (args : List Byte) (s : State) : s.SameCharter (s.doLayoutRelease t args).1 := by
  unfold State.doLayoutRelease
  split
  · split
    · rfl
    · exact s.completeLayout_charter
  · rfl

theorem State.doFocusSet_charter (t : Target) (args : List Byte) (s : State) : s.SameCharter (s.doFocusSet t args).1 := by
  unfold State.doFocusSet
  split
  · rfl
  · exact (s.directed_focusOnly ..).charter

theorem State.doWake_charter (t : Target) (args : List Byte) (s : State) : s.SameCharter (s.doWake t args).1 := by
  unfold State.doWake
  split
  · rfl
  · exact (s.wakeRequest_delivers _).charter

theorem State.showWindow_charter (w : Window) (shown : Bool) (s : State) : s.SameCharter (s.showWindow w shown).1 := by
  unfold State.showWindow
  split
  · have hset : s.SameCharter (s.modWindow w fun r => { r with shown := shown }) := rfl
    exact ite_sameCharter (.refl s) (hset.trans (State.reevaluate_focusOnly ..).charter)
  · rfl

theorem State.doWindowShow_charter (t : Target) (args : List Byte) (s : State) : s.SameCharter (s.doWindowShow t args).1 := by
  unfold State.doWindowShow
  split
  · rfl
  · split
    · exact s.showWindow_charter ..
    · rfl

theorem State.doNoticeClear_charter (t : Target) (args : List Byte) (s : State) : s.SameCharter (s.doNoticeClear t args).1 := by
  unfold State.doNoticeClear
  split
  · rfl
  · dsimp only
    split <;> rfl

theorem State.doNoticeSubscribe_charter (t : Target) (args : List Byte) (s : State) : s.SameCharter (s.doNoticeSubscribe t args).1 := by
  unfold State.doNoticeSubscribe
  split
  · rfl
  · split <;> rfl

theorem State.finish_charter (e : Execution) (a : Answer) (s : State) : s.SameCharter (s.finish e a) := by
  unfold State.finish
  dsimp only
  split
  · exact State.SameCharter.trans (t := { s with executing := none }) rfl (State.reply_charter ..)
  · rfl

theorem State.goOn_charter (e : Execution) (s : State) : s.SameCharter (s.goOn e) := by
  unfold State.goOn
  split
  · split
    · exact (s.takePart_charter _).trans rfl
    · exact s.finish_charter ..
  · rfl
  · exact s.finish_charter ..

theorem State.beginStatusRead_charter (t : Target) (f : ControlFrame) (s : State) : s.SameCharter (s.beginStatusRead t f) := by
  unfold State.beginStatusRead
  split
  · exact s.goOn_charter _
  · exact s.reply_charter ..

theorem State.controlPart_keepsCharter (c : ControlCommand) {start : Target → ControlFrame → State → State}
    (h : ∀ (t : Target) (f : ControlFrame) (s : State), s.SameCharter (start t f s)) (s : State) :
    s.KeepsCharter (s.controlPart c start) := by
  rcases s.controlPart_cases c start with ⟨-, heq⟩ | ⟨e, -, -, heq⟩ | ⟨e, -, -, heq⟩ <;> rw [heq]
  · exact State.takeFrame_keepsCharter _ (fun t f s => (h t f s).keeps) s
  · exact (s.goOn_charter e).keeps
  · exact .refl s

/-! ## Every step -/

theorem running_keepsCharter {f : State → State} {s t : State} (hr : running s f = .next t) (h : ∀ s : State, s.KeepsCharter (f s)) :
    s.KeepsCharter t := by
  obtain rfl := Host.Outcome.next.inj hr
  split
  · exact .refl s
  · exact h s

theorem running_sameCharter {f : State → State} {s t : State} (hr : running s f = .next t) (h : ∀ s : State, s.SameCharter (f s)) :
    s.KeepsCharter t := running_keepsCharter hr fun s => (h s).keeps

theorem onAttached_charter (u : Target) {f : State → State} (h : ∀ s : State, s.SameCharter (f s)) (s : State) :
    s.SameCharter (onAttached u f s) := ite_sameCharter (h s) (.refl s)

/-- Of the commands that leave the straps, only TABLE_WRITE writes a table with policy-class fields. -/
theorem exec_keepsCharter {c : Instr} {s t : State} (h : exec c s = .next t) (hc : ∀ cfgt lock, c ≠ .powerOn cfgt lock) :
    s.KeepsCharter t := by
  cases c with
  | powerOn cfgt lock => exact absurd rfl (hc cfgt lock)
  | hardReset =>
    obtain rfl := Host.Outcome.next.inj h
    exact s.hardReset_charter.keeps
  | resetNRelease =>
    obtain rfl := Host.Outcome.next.inj h
    have hreleased : s.SameCharter s.releaseReset := ite_sameCharter rfl (.refl s)
    exact hreleased.keeps
  | cAttach p cls => exact running_sameCharter h fun _ => rfl
  | cKeys p mods l =>
    unfold exec execCKeys at h
    exact running_sameCharter h fun x => ite_sameCharter rfl (ite_sameCharter (x.arriveKeys_charter p mods l) (.refl x))
  | cMotion p dx dy wheel buttons =>
    unfold exec execCMotion at h
    refine running_sameCharter h fun x => ite_sameCharter ?_ (.refl x)
    exact State.SameCharter.trans (t := x.activity) rfl (State.storeFifo_charter ..)
  | cDetach p => exact running_sameCharter h (State.detachConsole_charter p)
  | consoleLaneLoss p => exact running_sameCharter h (State.detachConsole_charter p)
  | mergeTakeEntry => exact running_sameCharter h State.mergeTake_charter
  | tapDeadlineExpiry =>
    unfold exec execTapDeadlineExpiry at h
    exact running_sameCharter h fun x => ite_sameCharter rfl (.refl x)
  | leaderDeadlineExpiry =>
    unfold exec execLeaderDeadlineExpiry at h
    exact running_sameCharter h fun x => ite_sameCharter rfl (.refl x)
  | pAttach u m => exact running_sameCharter h (State.attachTarget_charter u m)
  | pDetach u => exact running_sameCharter h (State.detachTarget_charter u)
  | targetLaneLoss u => exact running_sameCharter h (State.detachTarget_charter u)
  | pMode u m => exact running_sameCharter h (onAttached_charter u (State.changeMode_charter u m))
  | pCredit u n =>
    unfold exec execPCredit at h
    have hattached := onAttached_charter u (f := State.grantCredit u n.toNat) fun _ => rfl
    exact running_sameCharter h fun x => ite_sameCharter (hattached x) rfl
  | pLeds u l =>
    unfold exec execPLeds at h
    have hattached := onAttached_charter u (f := State.reportLeds u (l.setWidth 5)) fun _ => rfl
    exact running_sameCharter h fun x => ite_sameCharter (hattached x) rfl
  | pPower u v =>
    unfold exec execPPower at h
    exact running_sameCharter h fun x => ite_sameCharter (x.takePower_charter u v) (.refl x)
  | pControl u tag command args =>
    unfold exec execPControl at h
    exact running_sameCharter h fun x => ite_sameCharter (onAttached_charter u (State.offerControl_charter u ⟨tag, command, args⟩) x) rfl
  | sendReport u => exact running_sameCharter h (State.sendReport_charter u)
  | stallTimerExpiry u =>
    unfold exec execStallTimerExpiry at h
    exact running_sameCharter h fun x => ite_sameCharter (.refl x) rfl
  | wakeTimerExpiry u => exact running_sameCharter h (State.wakeExpiry_charter u)
  | idleTimerExpiry => exact running_sameCharter h State.idleExpiry_charter
  | signalArrival k => exact running_sameCharter h fun _ => rfl
  | signalLoss k => exact running_sameCharter h fun _ => rfl
  | headFrameEnd k g picture => exact running_sameCharter h (State.headFrameEnd_charter k g picture)
  | displayFrameStart d => exact running_sameCharter h (State.displayFrame_charter d)
  | tableRead => exact running_keepsCharter h (State.control_keepsCharter _ fun t args x => (x.doTableRead_charter t args).keeps)
  | tableWrite => exact running_keepsCharter h (State.control_keepsCharter _ State.doTableWrite_keepsCharter)
  | layoutHold => exact running_keepsCharter h (State.control_keepsCharter _ fun t args x => (x.doLayoutHold_charter t args).keeps)
  | layoutRelease => exact running_keepsCharter h (State.control_keepsCharter _ fun t args x => (x.doLayoutRelease_charter t args).keeps)
  | layoutAbandon => exact running_keepsCharter h (State.control_keepsCharter _ fun t args x => (x.doLayoutAbandon_charter t args).keeps)
  | focusSet => exact running_keepsCharter h (State.control_keepsCharter _ fun t args x => (x.doFocusSet_charter t args).keeps)
  | wake => exact running_keepsCharter h (State.control_keepsCharter _ fun t args x => (x.doWake_charter t args).keeps)
  | windowShow => exact running_keepsCharter h (State.control_keepsCharter _ fun t args x => (x.doWindowShow_charter t args).keeps)
  | statusRead => exact running_keepsCharter h (State.controlPart_keepsCharter _ State.beginStatusRead_charter)
  | noticeRead => exact running_keepsCharter h (State.control_keepsCharter _ fun _ _ => .refl)
  | noticeClear => exact running_keepsCharter h (State.control_keepsCharter _ fun t args x => (x.doNoticeClear_charter t args).keeps)
  | noticeSubscribe => exact running_keepsCharter h (State.control_keepsCharter _ fun t args x => (x.doNoticeSubscribe_charter t args).keeps)
  | deskReset => exact running_keepsCharter h (State.controlPart_keepsCharter _ fun _ _ _ => rfl)
  | badCommand => exact running_keepsCharter h (State.control_keepsCharter _ fun _ _ => .refl)
  | badConsoleFrame p bytes =>
    unfold exec execBadConsoleFrame at h
    exact running_sameCharter h fun x => ite_sameCharter rfl (.refl x)
  | badTargetFrame u bytes =>
    unfold exec execBadTargetFrame at h
    exact running_sameCharter h fun x => ite_sameCharter rfl (.refl x)

/-- POWER_ON gives the target CFGT names control permit (R166). -/
theorem State.powerOn_somePermit (cfgt : Target) (lock : Bool) : (State.powerOn cfgt lock).SomePermit :=
  ⟨cfgt, by rw [State.powerOn_policies]; exact decide_eq_true rfl⟩

theorem exec_somePermit {c : Instr} {s t : State} (h : exec c s = .next t) (hs : s.SomePermit) : t.SomePermit := by
  by_cases hc : ∃ cfgt lock, c = .powerOn cfgt lock
  · obtain ⟨cfgt, lock, rfl⟩ := hc
    obtain rfl := Host.Outcome.next.inj h
    exact State.powerOn_somePermit cfgt lock
  · exact (exec_keepsCharter h fun cfgt lock e => hc ⟨cfgt, lock, e⟩).permit hs

/-- What a step does: it idles, goes on with a command executed in parts, or executes the front command with the queue's rest. -/
theorem step_cases {s t : State} (h : step s = .next t) : t = s ∨ (∃ w : EngineWork, exec w.row s = .next t) ∨
    ∃ c rest, s.pending = c :: rest ∧ exec c { s with pending := rest } = .next t := by
  unfold step at h
  split at h
  · split at h
    · rename_i e _
      exact .inr (.inl ⟨e.work, h⟩)
    · exact .inl (Host.Outcome.next.inj h).symm
  · rename_i c rest hpending
    exact .inr (.inr ⟨c, rest, hpending, h⟩)

theorem step_keepsCharter {s t : State} (h : step s = .next t) (hpower : ∀ cfgt lock rest, s.pending ≠ .powerOn cfgt lock :: rest) :
    s.KeepsCharter t := by
  rcases step_cases h with rfl | ⟨w, hexec⟩ | ⟨c, rest, hpending, hexec⟩
  · exact .refl _
  · exact exec_keepsCharter hexec fun _ _ => by cases w <;> exact nofun
  · have hqueue : s.KeepsCharter { s with pending := rest } := State.SameCharter.keeps rfl
    exact hqueue.trans (exec_keepsCharter hexec fun cfgt lock hc => hpower cfgt lock rest (hc ▸ hpending))

theorem step_somePermit {s t : State} (h : step s = .next t) (hs : s.SomePermit) : t.SomePermit := by
  rcases step_cases h with rfl | ⟨w, hexec⟩ | ⟨c, rest, -, hexec⟩
  · exact hs
  · exact exec_somePermit hexec hs
  · exact exec_somePermit (s := { s with pending := rest }) hexec hs

end Sys2Proof.Machine

/-- Settles O60: only an accepted TABLE_WRITE and POWER_ON write a policy-class field or a strap; such a write leaves some permit
(`State.accepted_permit`), and under LOCK it carries the policy-class fields as they stand (`State.accepted_policy`). -/
theorem everyStepKeepsPermitsAndLockedPolicy : Obligations.EveryStepKeepsPermitsAndLockedPolicy :=
  ⟨fun _ _ hs h => Sys2Proof.Machine.step_somePermit h hs,
    fun _ _ hlock hpower h => (Sys2Proof.Machine.step_keepsCharter h hpower).locked hlock⟩
end

section
/-! PROOFS. RESET_N asserted (O6), the raise (O11), and the two ways into a control command: P_CONTROL at the inbox (O29) and the refusals of
the control engine (O40). -/

namespace Sys2Proof.Machine

/-! ## While RESET_N is asserted (R176) -/

/-- Every command but the three reset rows acts only while the block runs. -/
theorem exec_eq_running {c : Instr} (hpower : ∀ cfgt lock, c ≠ .powerOn cfgt lock) (hhard : c ≠ .hardReset) (hrelease : c ≠ .resetNRelease)
    (s : State) : ∃ f : State → State, exec c s = running s f := by
  cases c with
  | powerOn cfgt lock => exact absurd rfl (hpower cfgt lock)
  | hardReset => exact absurd rfl hhard
  | resetNRelease => exact absurd rfl hrelease
  | cKeys =>
    unfold exec execCKeys
    exact ⟨_, rfl⟩
  | pCredit =>
    unfold exec execPCredit
    exact ⟨_, rfl⟩
  | pLeds =>
    unfold exec execPLeds
    exact ⟨_, rfl⟩
  | pControl =>
    unfold exec execPControl
    exact ⟨_, rfl⟩
  | _ => exact ⟨_, rfl⟩

/-! ## The raise (R173) -/

theorem State.raise_eq (k : NoticeKind) (i : Fin 16) (s : State) :
    s.raise k i = { s with notices := (s.raise k i).notices, sent := (s.raise k i).sent } := rfl

theorem State.raise_noticeFlag (k : NoticeKind) (i : Fin 16) (s : State) : (s.raise k i).noticeFlag k = true := by
  have hmember : has ((s.raise k i).subjects k) i = true := by simp [State.raise_has]
  simpa [State.noticeFlag] using has_nonzero hmember

theorem State.raise_sent (k : NoticeKind) (i : Fin 16) (s : State) : (s.raise k i).sent =
    s.sent ++ if has (s.subjects k) i then [] else s.noticeTargets.map fun u => .notice u k ((s.raise k i).subjects k) := by
  rw [State.raise_subjects, if_pos rfl]
  rfl

theorem State.noticeTargets_nodup (s : State) : s.noticeTargets.Nodup := (List.nodup_finRange 8).filter _

theorem State.mem_noticeTargets {s : State} {u : Target} :
    u ∈ s.noticeTargets ↔ has s.subscribers u = true ∧ s.policies[u].permit = true ∧ s.targets[u].attached = true := by
  simp [State.noticeTargets, and_assoc]

/-! ## P_CONTROL at the inbox (R162) -/

theorem exec_pControl {t : Target} {tag c : Byte} {args : List Byte} {s : State} (hreset : s.resetAsserted = false)
    (hattached : s.targets[t].attached = true) (hargs : args.length ≤ 60) :
    exec (.pControl t tag c args) s = .next (s.offerControl t ⟨tag, c, args⟩) := by
  have hok : controlArgsOk args = true := decide_eq_true hargs
  calc exec (.pControl t tag c args) s = running s (onAttached t (State.offerControl t ⟨tag, c, args⟩)) := by
        unfold exec execPControl
        simp only [hok, if_true]
    _ = .next (s.offerControl t ⟨tag, c, args⟩) := running_onAttached hreset hattached

theorem State.offerControl_empty {t : Target} {s : State} (f : ControlFrame) (h : s.targets[t].inbox = none) :
    s.offerControl t f = s.modTarget t fun p => { p with inbox := some f } := by
  rw [State.offerControl, h]
  rfl

theorem State.offerControl_occupied {t : Target} {s : State} (f : ControlFrame) (h : s.targets[t].inbox ≠ none)
    (hattached : s.targets[t].attached = true) : s.offerControl t f = { s with sent := s.sent ++ [.reply t f.tag .busy []] } := by
  rw [State.offerControl, if_pos (Option.isSome_iff_ne_none.mpr h), State.sendTo, if_pos hattached]
  rfl

/-! ## Steps 1 and 2 of the control engine (R163) -/

/-- The rows of the control engine, each with the command whose frames it takes. -/
def controlRows : List (Instr × Option ControlCommand) :=
  [(Instr.tableRead, some ControlCommand.tableRead), (Instr.tableWrite, some ControlCommand.tableWrite),
    (Instr.layoutHold, some ControlCommand.layoutHold), (Instr.layoutRelease, some ControlCommand.layoutRelease),
    (Instr.layoutAbandon, some ControlCommand.layoutAbandon), (Instr.focusSet, some ControlCommand.focusSet),
    (Instr.wake, some ControlCommand.wake), (Instr.windowShow, some ControlCommand.windowShow),
    (Instr.statusRead, some ControlCommand.statusRead), (Instr.noticeRead, some ControlCommand.noticeRead),
    (Instr.noticeClear, some ControlCommand.noticeClear), (Instr.noticeSubscribe, some ControlCommand.noticeSubscribe),
    (Instr.deskReset, some ControlCommand.deskReset), (Instr.badCommand, none)]

theorem State.controlPart_free {s : State} (h : s.executing = none) (c : ControlCommand) (start : Target → ControlFrame → State → State) :
    s.controlPart c start = s.takeFrame (some c) start := by rw [State.controlPart, h]

/-- With no command in parts under way, each row takes the next frame if it is one of its own. -/
theorem exec_controlRow {s : State} (hreset : s.resetAsserted = false) (hfree : s.executing = none) :
    ∀ r ∈ controlRows, ∃ run, exec r.1 s = .next (s.takeFrame r.2 run) := by
  have hwhole : ∀ (k : Option ControlCommand) body, ∃ run, running s (State.control k body) = .next (s.takeFrame k run) :=
    fun _ _ => ⟨_, running_eq s _ hreset⟩
  have hparts : ∀ (k : ControlCommand) start, ∃ run, running s (State.controlPart k start) = .next (s.takeFrame (some k) run) :=
    fun k start => ⟨start, by rw [running_eq s _ hreset, State.controlPart_free hfree]⟩
  simp only [controlRows, List.forall_mem_cons]
  exact ⟨hwhole _ _, hwhole _ _, hwhole _ _, hwhole _ _, hwhole _ _, hwhole _ _, hwhole _ _, hwhole _ _, hparts _ _, hwhole _ _,
    hwhole _ _, hwhole _ _, hparts _ _, hwhole _ _, nofun⟩

/-- What takeFrame does with the frame it takes, by the sender's permit. -/
theorem State.ControlTurn.takeFrame {s : State} {t : Target} {f : ControlFrame} {c : Option ControlCommand} (h : s.ControlTurn t f c)
    (run : Target → ControlFrame → State → State) : s.takeFrame c run =
      if s.policies[t].permit then run t f { s with ctrlLast := t } else s.answered t f .notPermitted [] := by
  have hnext := h.nextFrame
  obtain ⟨-, hfree, hattached, -, hcommand, -⟩ := h
  have hreply := State.reply_eq_answered (x := { s with ctrlLast := t }) (f := f) (a := ⟨.notPermitted, []⟩) hattached rfl
  rw [State.takeFrame, if_neg (by simp [hfree]), hnext]
  simp only [hcommand, if_true, hreply]
  rfl

end Sys2Proof.Machine

open Sys2Proof Sys2Proof.Machine

/-- Settles O6: every command left is one that acts only while the block runs. -/
theorem nothingHappensWhileResetIsAsserted : Obligations.NothingHappensWhileResetIsAsserted := by
  intro c s hreset _ hpower hhard hrelease
  obtain ⟨f, hf⟩ := exec_eq_running hpower hhard hrelease s
  rw [hf, running_asserted s f hreset]

/-- Settles O11, by whether the raise's subject is new. -/
theorem raiseSendsOneNoticePerNewSubject : Obligations.RaiseSendsOneNoticePerNewSubject := by
  intro k i s
  refine ⟨State.raise_eq k i s, fun j => ?_, fun k' hne => ?_, State.raise_noticeFlag k i s, fun hold => ?_, fun hnew => ?_⟩
  · rw [State.raise_has, Bool.or_comm]
    simp
  · rw [State.raise_subjects, if_neg hne]
  · rw [State.raise_sent, if_pos hold, List.append_nil]
  · exact ⟨s.noticeTargets, s.noticeTargets_nodup, by rw [State.raise_sent, if_neg (by simp [hnew])], fun _ => State.mem_noticeTargets⟩

/-- Settles O29, by whether the inbox is empty. -/
theorem controlFrameEntersTheInboxOrIsBusy : Obligations.ControlFrameEntersTheInboxOrIsBusy := by
  intro t tag c args s hreset hattached hargs
  rw [exec_pControl hreset hattached hargs]
  exact ⟨fun h => congrArg _ (State.offerControl_empty _ h), fun h => congrArg _ (State.offerControl_occupied _ h hattached)⟩

/-- Settles O40: the row takes its frame, and step 1 or step 2 of R163 answers it. -/
theorem controlEngineRefusesWithoutEffect : Obligations.ControlEngineRefusesWithoutEffect := by
  refine ⟨fun t f c k s hpermit hrow hturn => ?_, fun t f s hturn hpermit => ?_⟩
  · have ⟨hreset, hfree, _⟩ := hturn
    obtain ⟨run, hrun⟩ := exec_controlRow hreset hfree (c, k) hrow
    rw [hrun, hturn.takeFrame, hpermit]
    rfl
  · have ⟨hreset, _, hattached, _⟩ := hturn
    have hexec : exec .badCommand s = running s (State.control none State.doBadCommand) := rfl
    rw [hexec, running_eq s _ hreset, State.control, hturn.takeFrame, if_pos hpermit]
    exact congrArg _ (State.reply_eq_answered (x := { s with ctrlLast := t }) hattached rfl)
end

section
/-! PROOFS. NOTICE_READ, NOTICE_CLEAR and NOTICE_SUBSCRIBE (R174, R175, O50). -/

namespace Sys2Proof.Machine

/-! ## Kinds and sets as bytes (R180) -/

theorem kindCode_eq_elim (o : Option NoticeKind) : kindCode o = (o.map NoticeKind.index).elim 0 fun i => i.val + 1 := by cases o <;> rfl

theorem noticeKindOf_none {code : Nat} (h : code = 0 ∨ 8 < code) : noticeKindOf code = none := by
  unfold noticeKindOf
  rcases h with rfl | h
  · rfl
  · rw [if_neg (by omega)]
    have hlength : noticeKinds.length = 8 := rfl
    exact List.getElem?_eq_none (by omega)

theorem noticeKindOf_index (k : NoticeKind) : noticeKindOf (k.index.val + 1) = some k := by cases k <;> rfl

/-- A subject set's two bytes, the more significant first, spell it. -/
theorem ofNat_beValue_pair (hi lo : Byte) : BitVec.ofNat 16 (beValue [hi, lo]) = hi ++ lo := by
  have hvalue : beValue [hi, lo] = hi.toNat <<< 8 + lo.toNat := by simp [beValue, Nat.shiftLeft_eq]
  rw [hvalue, Nat.shiftLeft_add_eq_or_of_lt lo.isLt, ← BitVec.toNat_append, BitVec.ofNat_toNat, BitVec.setWidth_eq]

/-! ## NOTICE_READ -/

theorem bne_zero_eq_decide (a : SubjectSet) : (a != 0) = decide (a ≠ 0) := by
  rw [Bool.eq_iff_iff, bne_iff_ne, decide_eq_true_iff]

theorem State.noticeFlags_eq (s : State) : s.noticeFlags = maskOf 8 fun i => decide (s.notices[i] ≠ 0) := by
  unfold State.noticeFlags
  exact congrArg _ (funext fun i => bne_zero_eq_decide _)

/-- The kind NOTICE_READ names is that of the first set in the record that is not empty. -/
theorem State.pendingKind_index (s : State) :
    s.pendingKind.map NoticeKind.index = (List.finRange 8).find? fun i => decide (s.notices[i] ≠ 0) := by
  rw [← noticeKinds_map_index, List.find?_map]
  refine congrArg (fun p => (noticeKinds.find? p).map NoticeKind.index) (funext fun k => ?_)
  exact bne_zero_eq_decide _

theorem State.doNoticeRead_eq (t : Target) (args : List Byte) (s : State) : State.doNoticeRead t args s = (s, ⟨.ok,
    [maskOf 8 fun i => decide (s.notices[i] ≠ 0)] ++ s.notices.toList.flatMap (fun n => beBytes 2 n.toNat) ++
      [BitVec.ofNat 8 (((List.finRange 8).find? fun i => decide (s.notices[i] ≠ 0)).elim 0 fun i => i.val + 1)]⟩) := by
  rw [State.doNoticeRead, State.noticeFlags_eq, kindCode_eq_elim, State.pendingKind_index]
  rfl

/-! ## NOTICE_CLEAR -/

theorem State.doNoticeClear_badKind {k : Byte} (h : k = 0 ∨ 8 < k.toNat) (t : Target) (hi lo : Byte) (s : State) :
    State.doNoticeClear t [k, hi, lo] s = (s, ⟨.badValue, [0xE1]⟩) := by
  have hkind : noticeKindOf (arg [k, hi, lo] 1) = none := noticeKindOf_none (h.imp_left (congrArg BitVec.toNat))
  rw [State.doNoticeClear, hkind]
  rfl

/-- NOTICE_CLEAR of a kind, by whether it names a subject the kind cannot have. -/
theorem State.doNoticeClear_kind {k : Byte} {kind : NoticeKind} (h : k.toNat = kind.index.val + 1) (t : Target) (hi lo : Byte) (s : State) :
    State.doNoticeClear t [k, hi, lo] s =
      if (hi ++ lo) &&& ~~~kind.subjects = 0 then
        ({ s with notices := upd s.notices kind.index fun n => n &&& ~~~(hi ++ lo) },
          ⟨.ok, beBytes 2 (s.notices[kind.index] &&& ~~~(hi ++ lo)).toNat⟩)
      else (s, ⟨.badValue, [0xE2]⟩) := by
  have hkind : noticeKindOf (arg [k, hi, lo] 1) = some kind := (congrArg noticeKindOf h).trans (noticeKindOf_index kind)
  have hset : BitVec.ofNat 16 (beValue ([k, hi, lo].drop 1)) = hi ++ lo := ofNat_beValue_pair hi lo
  have hleft : (s.clearNotice kind (hi ++ lo)).subjects kind = s.notices[kind.index] &&& ~~~(hi ++ lo) := upd_get ..
  rw [State.doNoticeClear, hkind]
  dsimp only
  rw [hset, hleft]
  by_cases hsubjects : (hi ++ lo) &&& ~~~kind.subjects = 0
  · rw [if_pos hsubjects, if_neg (by simpa [minus] using hsubjects)]
    rfl
  · rw [if_neg hsubjects, if_pos (by simpa [minus] using hsubjects)]
    rfl

/-! ## NOTICE_SUBSCRIBE -/

theorem State.doNoticeSubscribe_badValue {v : Byte} (h : 1 < v.toNat) (t : Target) (s : State) :
    State.doNoticeSubscribe t [v] s = (s, ⟨.badValue, [0xE1]⟩) := by
  have harg : arg [v] 1 = v.toNat := rfl
  rw [State.doNoticeSubscribe, harg, if_neg (by omega), if_neg (by omega)]
  rfl

theorem State.doNoticeSubscribe_one {args : List Byte} (h : args = [1]) (t : Target) (s : State) :
    State.doNoticeSubscribe t args s = ({ s with subscribers := adjoin s.subscribers t }, ⟨.ok, [1]⟩) := by
  subst h
  rfl

theorem State.doNoticeSubscribe_zero {args : List Byte} (h : args = [0]) (t : Target) (s : State) :
    State.doNoticeSubscribe t args s = ({ s with subscribers := remove s.subscribers t }, ⟨.ok, [0]⟩) := by
  subst h
  rfl

end Sys2Proof.Machine

open Sys2Proof Sys2Proof.Machine

/-- Settles O50, command by command and by what the arguments name. -/
theorem noticeCommandsReadClearAndSubscribe : Obligations.NoticeCommandsReadClearAndSubscribe := by
  intro t f s
  refine ⟨fun h => ?_, fun k hi lo h hargs => ⟨fun hk => ?_, fun kind hk => ⟨fun hset => ?_, fun hset => ?_⟩⟩,
    fun v h hargs => ⟨?_, ?_, fun hv => ?_⟩⟩
  · exact h.control_refused State.doNoticeRead (State.doNoticeRead_eq ..)
  · exact h.control_refused State.doNoticeClear (by rw [hargs, State.doNoticeClear_badKind hk])
  · exact h.control_refused State.doNoticeClear (by rw [hargs, State.doNoticeClear_kind hk, if_neg hset])
  · have hbody := State.doNoticeClear_kind hk t hi lo { s with ctrlLast := t }
    rw [if_pos hset, ← hargs] at hbody
    have hanswer := h.control_answered State.doNoticeClear hbody rfl rfl
    exact hanswer
  · rintro rfl
    refine ⟨{ s with subscribers := adjoin s.subscribers t }, ?_, rfl, fun u => ?_⟩
    · have hbody := State.doNoticeSubscribe_one hargs t { s with ctrlLast := t }
      have hanswer := h.control_answered State.doNoticeSubscribe hbody rfl rfl
      exact hanswer
    · rw [has_adjoin, Bool.or_comm]
  · rintro rfl
    refine ⟨{ s with subscribers := remove s.subscribers t }, ?_, rfl, fun u => ?_⟩
    · have hbody := State.doNoticeSubscribe_zero hargs t { s with ctrlLast := t }
      have hanswer := h.control_answered State.doNoticeSubscribe hbody rfl rfl
      exact hanswer
    · rw [has_remove, Bool.and_comm, decide_not]
  · exact h.control_refused State.doNoticeSubscribe (by rw [hargs, State.doNoticeSubscribe_badValue hv])
end

section
/-! SUPPORT. STATUS_READ row by row: how it begins, goes on and ends, and what waits meanwhile (R163, R172). -/

namespace Sys2Proof.Machine

theorem running_of_fixed {f : State → State} {s : State} (h : f s = s) : running s f = .next s := by rw [running, h, ite_self]

theorem execTimes_next {c : Instr} {s t : State} (h : exec c s = .next t) (n : Nat) : execTimes c (n + 1) s = execTimes c n t := by
  rw [execTimes, h]

theorem State.reply_attached {t : Target} {s : State} (h : s.targets[t].attached = true) (f : ControlFrame) (a : Answer) :
    s.reply t f a =
      { s with targets := upd s.targets t fun p => { p with inbox := none }, sent := s.sent ++ [.reply t f.tag a.code a.data] } := by
  rw [State.reply, State.sendTo, if_pos h]
  rfl

/-! ## The blocks of a section (10.6) -/

/-- The blocks of GENERAL, in the order of its items. -/
def generalBlocks : List StatusBlock := [.controlEngine, .wakeUnit, .layoutStore, .focusUnit, .glideUnit, .targetPorts, .videoHeads]

/-- Selector b names the section read at these blocks. -/
def StatusCovers (b : Byte) (blocks : List StatusBlock) : Prop :=
  (b = 0 ∧ blocks = generalBlocks) ∨ (∃ u : Target, b.toNat = 0x10 + u.val ∧ blocks = [.inputState u, .targetPort u]) ∨
    ∃ p : Port, b.toNat = 0x20 + p.val ∧ blocks = [.consolePort p]

theorem statusBlocks_target {n : Nat} {u : Target} (h : n = 0x10 + u.val) : statusBlocks n = some [.inputState u, .targetPort u] := by
  rw [statusBlocks, if_neg (by omega), if_neg (by omega), numOpt_of_eq (i := u) (by omega)]

theorem statusBlocks_port {n : Nat} {p : Port} (h : n = 0x20 + p.val) : statusBlocks n = some [.consolePort p] := by
  rw [statusBlocks, if_neg (by omega), if_neg (by omega), numOpt_of_ge (by omega)]
  dsimp only
  rw [if_neg (by omega), numOpt_of_eq (i := p) (by omega)]
  rfl

theorem statusBlocks_none {n : Nat} (hzero : n ≠ 0) (h : n < 0x10 ∨ (0x18 ≤ n ∧ n < 0x20) ∨ 0x24 ≤ n) : statusBlocks n = none := by
  rw [statusBlocks, if_neg hzero]
  rcases h with hlow | ⟨hmid, hlt⟩ | hhigh
  · rw [if_pos hlow]
  · rw [if_neg (by omega), numOpt_of_ge (by omega)]
    dsimp only
    rw [if_pos hlt]
  · rw [if_neg (by omega), numOpt_of_ge (by omega)]
    dsimp only
    rw [if_neg (by omega), numOpt_of_ge (by omega)]
    rfl

theorem StatusCovers.statusBlocks {b : Byte} {blocks : List StatusBlock} (h : StatusCovers b blocks) :
    statusBlocks (arg [b] 1) = some blocks := by
  rcases h with ⟨rfl, rfl⟩ | ⟨u, hu, rfl⟩ | ⟨p, hp, rfl⟩
  · rfl
  · exact statusBlocks_target hu
  · exact statusBlocks_port hp

theorem StatusCovers.ne_nil {b : Byte} {blocks : List StatusBlock} (h : StatusCovers b blocks) : blocks ≠ [] := by
  rcases h with ⟨-, rfl⟩ | ⟨u, -, rfl⟩ | ⟨p, -, rfl⟩ <;> exact List.cons_ne_nil _ _

/-! ## The rows -/

/-- No block's items are the engine's rotation pointer or the command it is executing. -/
theorem State.readBlock_engine (k : StatusBlock) (data : List Byte) (t : Target) (e : Option Execution) (s : State) :
    ({ s with ctrlLast := t, executing := e } : State).readBlock k data = s.readBlock k data := by cases k <;> rfl

theorem State.Serves.exec_statusRead {s : State} {t : Target} {f : ControlFrame} (h : s.Serves t f .statusRead) :
    exec .statusRead s = .next (State.beginStatusRead t f { s with ctrlLast := t }) := by
  have ⟨⟨hreset, hfree, _⟩, _⟩ := h
  have hexec : exec .statusRead s = running s (State.controlPart .statusRead State.beginStatusRead) := rfl
  rw [hexec, running_eq s _ hreset, State.controlPart_free hfree, h.takeFrame]

theorem State.Serves.exec_statusRead_begins {s : State} {t : Target} {f : ControlFrame} {first : StatusBlock} {left : List StatusBlock}
    (h : s.Serves t f .statusRead) (hblocks : statusBlocks (arg f.args 1) = some (first :: left)) : exec .statusRead s =
      .next { s with ctrlLast := t, executing := some ⟨t, some f, .status left (s.readBlock first [])⟩ } := by
  rw [h.exec_statusRead, State.beginStatusRead, hblocks]
  dsimp only
  rw [State.goOn_status_cons, State.readBlock_engine first [] t s.executing s]

theorem State.Serves.exec_statusRead_refused {s : State} {t : Target} {f : ControlFrame} (h : s.Serves t f .statusRead)
    (hblocks : statusBlocks (arg f.args 1) = none) : exec .statusRead s = .next (s.answered t f .badValue [0xE1]) := by
  have ⟨⟨_, _, hattached, _⟩, _⟩ := h
  rw [h.exec_statusRead, State.beginStatusRead, hblocks]
  exact congrArg _ (State.reply_attached (s := { s with ctrlLast := t }) hattached f (badArgument 1))

theorem exec_statusRead_goOn {s : State} {e : Execution} (hreset : s.resetAsserted = false) (he : s.executing = some e)
    (hwork : e.work.command = .statusRead) : exec .statusRead s = .next (s.goOn e) := by
  have hexec : exec .statusRead s = running s (State.controlPart .statusRead State.beginStatusRead) := rfl
  rw [hexec, running_eq s _ hreset, State.controlPart, he]
  exact congrArg _ (if_pos hwork)

theorem exec_statusRead_block {s : State} {u : Target} {sought : Option ControlFrame} {k : StatusBlock} {left : List StatusBlock}
    {data : List Byte} (hreset : s.resetAsserted = false) (he : s.executing = some ⟨u, sought, .status (k :: left) data⟩) :
    exec .statusRead s = .next { s with executing := some ⟨u, sought, .status left (s.readBlock k data)⟩ } := by
  rw [exec_statusRead_goOn hreset he rfl, State.goOn_status_cons]

theorem exec_statusRead_replies {s : State} {u : Target} {f : ControlFrame} {data : List Byte} (hreset : s.resetAsserted = false)
    (he : s.executing = some ⟨u, some f, .status [] data⟩) (hattached : s.targets[u].attached = true) :
    exec .statusRead s = .next { s with
      executing := none, targets := upd s.targets u fun x => { x with inbox := none }, sent := s.sent ++ [.reply u f.tag .ok data] } := by
  rw [exec_statusRead_goOn hreset he rfl, State.goOn_status_nil, State.finish_with_frame]
  exact congrArg _ (State.reply_attached (s := { s with executing := none }) hattached f (okWith data))

theorem exec_statusRead_dropsReply {s : State} {u : Target} {data : List Byte} (hreset : s.resetAsserted = false)
    (he : s.executing = some ⟨u, none, .status [] data⟩) : exec .statusRead s = .next { s with executing := none } := by
  rw [exec_statusRead_goOn hreset he rfl, State.goOn_status_nil, State.finish_without_frame]

/-- s with the engine executing e for the sender t. -/
def State.busyWith (t : Target) (e : Execution) (s : State) : State := { s with ctrlLast := t, executing := some e }

theorem State.exec_statusRead_busyWith_cons (t : Target) (f : ControlFrame) (k : StatusBlock) (left : List StatusBlock) (data : List Byte)
    {s : State} (hreset : s.resetAsserted = false) : exec .statusRead (s.busyWith t ⟨t, some f, .status (k :: left) data⟩) =
      .next (s.busyWith t ⟨t, some f, .status left (s.readBlock k data)⟩) := by
  have hread : (s.busyWith t ⟨t, some f, .status (k :: left) data⟩).readBlock k data = s.readBlock k data :=
    State.readBlock_engine k data t _ s
  rw [exec_statusRead_block (s := s.busyWith ..) hreset rfl, hread]
  rfl

theorem State.exec_statusRead_busyWith_nil (t : Target) (f : ControlFrame) (data : List Byte) {s : State} (hreset : s.resetAsserted = false)
    (hfree : s.executing = none) (hattached : s.targets[t].attached = true) :
    exec .statusRead (s.busyWith t ⟨t, some f, .status [] data⟩) = .next (s.answered t f .ok data) := by
  rw [exec_statusRead_replies (s := s.busyWith ..) hreset rfl hattached, State.answered, ← hfree]
  rfl

/-- With nothing between, the reads left find the state the command was taken in, and the reply follows the last. -/
theorem State.execTimes_statusRead_busyWith {t : Target} (f : ControlFrame) {s : State} (hreset : s.resetAsserted = false)
    (hfree : s.executing = none) (hattached : s.targets[t].attached = true) (left : List StatusBlock) (data : List Byte) :
    execTimes .statusRead (left.length + 1) (s.busyWith t ⟨t, some f, .status left data⟩) =
      .next (s.answered t f .ok (left.foldl (fun d k => s.readBlock k d) data)) := by
  induction left generalizing data with
  | nil => exact execTimes_next (State.exec_statusRead_busyWith_nil t f data hreset hfree hattached) 0
  | cons k left ih =>
    exact (execTimes_next (State.exec_statusRead_busyWith_cons t f k left data hreset) _).trans (ih _)

theorem State.Serves.execTimes_statusRead {s : State} {t : Target} {f : ControlFrame} {blocks : List StatusBlock}
    (h : s.Serves t f .statusRead) (hblocks : statusBlocks (arg f.args 1) = some blocks) (hne : blocks ≠ []) :
    execTimes .statusRead (blocks.length + 1) s = .next (s.answered t f .ok (blocks.foldl (fun d k => s.readBlock k d) [])) := by
  have ⟨⟨hreset, hfree, hattached, _⟩, _⟩ := h
  cases blocks with
  | nil => exact absurd rfl hne
  | cons first left =>
    rw [execTimes_next (h.exec_statusRead_begins hblocks)]
    exact State.execTimes_statusRead_busyWith f hreset hfree hattached left _

/-- Meanwhile no other control command is executed, and a frame of none waits (R163). -/
theorem exec_controlRow_waits {s : State} {e : Execution} (he : s.executing = some e) (hwork : e.work.command = .statusRead) :
    ∀ c ∈ [Instr.tableRead, .tableWrite, .layoutHold, .layoutRelease, .layoutAbandon, .focusSet, .wake, .windowShow, .noticeRead,
      .noticeClear, .noticeSubscribe, .deskReset, .badCommand], exec c s = .next s := by
  have hwhole : ∀ (k : Option ControlCommand) body, running s (State.control k body) = .next s :=
    fun k _ => running_of_fixed (State.takeFrame_of_busy k _ e s he)
  have hreset : running s (State.controlPart .deskReset State.beginDeskReset) = .next s :=
    running_of_fixed (by rw [State.controlPart, he]; exact if_neg (by simp [hwork]))
  simp only [List.forall_mem_cons]
  exact ⟨hwhole _ _, hwhole _ _, hwhole _ _, hwhole _ _, hwhole _ _, hwhole _ _, hwhole _ _, hwhole _ _, hwhole _ _, hwhole _ _,
    hwhole _ _, hreset, hwhole _ _, nofun⟩

end Sys2Proof.Machine
end

section
/-! PROOFS. The data of a section: every item of 10.6 at its offset, as its own block's read found it (R172, R180); and STATUS_READ (O49). -/

namespace Sys2Proof.Machine

/-! ## Bytes, pointers and nibbles (R180) -/

theorem getD_of_drop {data tail : List Byte} {n : Nat} (h : data.drop n = tail) (i : Nat) : data.getD (n + i) 0 = tail.getD i 0 := by
  rw [← h]
  simp [List.getD]

theorem take_of_drop {data tail : List Byte} {n : Nat} (h : data.drop n = tail) (i w : Nat) :
    (data.drop (n + i)).take w = (tail.drop i).take w := by rw [← h, List.drop_drop]

/-- Three bytes carry 24 bits. -/
theorem beValue_beBytes_three {v : Nat} (h : v < 2 ^ 24) : beValue (beBytes 3 v) = v := by
  simp only [beBytes, beValue, List.foldl, BitVec.toNat_ofNat]
  omega

theorem beValue_beBytes_two {v : Nat} (h : v < 2 ^ 16) : beValue (beBytes 2 v) = v := by
  simp only [beBytes, beValue, List.foldl, BitVec.toNat_ofNat]
  omega

/-- The even item of a byte stands low. -/
theorem nibbleAt_even {data : List Byte} {n i a b : Nat} (h : data.getD (n + i) 0 = byteOf (a + 16 * b)) (ha : a < 16) :
    nibbleAt data n (2 * i) = a := by
  rw [nibbleAt, Nat.mul_div_cancel_left i Nat.two_pos, h, if_pos (Nat.mul_mod_right 2 i), byteOf, BitVec.toNat_ofNat]
  omega

/-- The odd item of a byte stands high. -/
theorem nibbleAt_odd {data : List Byte} {n i a b : Nat} (h : data.getD (n + i) 0 = byteOf (a + 16 * b)) (ha : a < 16) (hb : b < 16) :
    nibbleAt data n (2 * i + 1) = b := by
  have hhalf : (2 * i + 1) / 2 = i := by omega
  rw [nibbleAt, hhalf, h, if_neg (by omega), byteOf, BitVec.toNat_ofNat]
  omega

/-- Bytes that carry two items each carry every item at its place. -/
theorem nibbleAt_of_pairs {m n : Nat} {data : List Byte} {item : Fin (2 * m) → Nat} (hlt : ∀ j, item j < 16)
    (hbyte : ∀ i : Fin m, data.getD (n + i.val) 0 = byteOf (item ⟨2 * i.val, by omega⟩ + 16 * item ⟨2 * i.val + 1, by omega⟩))
    (j : Fin (2 * m)) : nibbleAt data n j.val = item j := by
  obtain ⟨j, hj⟩ := j
  rcases Nat.even_or_odd' j with ⟨i, rfl | rfl⟩
  · exact nibbleAt_even (hbyte ⟨i, by omega⟩) (hlt _)
  · exact nibbleAt_odd (hbyte ⟨i, by omega⟩) (hlt _) (hlt _)

theorem LockState.code_lt (l : LockState) : l.code < 16 := by cases l <;> decide

/-- Two bytes of a sequence number. -/
theorem beBytes_two_seq (v : BitVec 16) : beBytes 2 v.toNat = [v.extractLsb' 8 8, v.extractLsb' 0 8] := by
  have hhigh : BitVec.ofNat 8 (v.toNat / 256 ^ 1) = v.extractLsb' 8 8 := by
    rw [BitVec.extractLsb', Nat.shiftRight_eq_div_pow]
    rfl
  have hlow : BitVec.ofNat 8 (v.toNat / 256 ^ 0) = v.extractLsb' 0 8 := by
    rw [BitVec.extractLsb', Nat.shiftRight_eq_div_pow]
    rfl
  rw [beBytes, beBytes, beBytes, hhigh, hlow]

theorem KeyEntry.bytes_eq (e : KeyEntry) :
    e.bytes = [e.key, e.sources.setWidth 8, e.seq.extractLsb' 8 8, e.seq.extractLsb' 0 8] := by
  rw [KeyEntry.bytes, beBytes_two_seq, byteOf, BitVec.ofNat_toNat]
  rfl

theorem KeyEntry.flatMap_bytes_length (l : List KeyEntry) : (l.flatMap KeyEntry.bytes).length = 4 * l.length := by
  simp only [KeyEntry.bytes_eq, List.length_flatMap, List.length_cons, List.length_nil, List.map_const', List.sum_replicate_nat]
  omega

/-! ## The blocks of GENERAL at their offsets -/

theorem State.shows_controlEngine {s : State} {data tail : List Byte} (h : data.drop 0 = s.readBlock .controlEngine [] ++ tail) :
    s.Shows .controlEngine data := by
  refine (getD_of_drop h 0).trans ?_
  cases hlock : s.lockStrap <;> simp [State.readBlock, byteOf, flagNum, hlock, List.getD]

theorem State.shows_wakeUnit {s : State} {data tail : List Byte} (h : data.drop 1 = s.readBlock .wakeUnit [] ++ tail) :
    s.Shows .wakeUnit data := by
  refine (getD_of_drop h 0).trans ?_
  cases hstate : s.deskState <;> simp [State.readBlock, byteOf, DeskState.code, hstate, List.getD]

theorem State.shows_layoutStore {s : State} {data tail : List Byte} (h : data.drop 2 = s.readBlock .layoutStore [] ++ tail) :
    s.Shows .layoutStore data := by
  refine (getD_of_drop h 0).trans ?_
  cases howner : s.holdOwner <;> simp [State.readBlock, byteOf, optNum, howner, List.getD]

theorem State.shows_focusUnit {s : State} {data tail : List Byte} (h : data.drop 3 = s.readBlock .focusUnit [] ++ tail) :
    s.Shows .focusUnit data := by
  have hitem := getD_of_drop h
  refine ⟨hitem 0, (hitem 1).trans ?_, (hitem 2).trans ?_, (hitem 3).trans ?_, hitem 4, fun i => ?_⟩
  · show byteOf s.focus.region.code = _
    cases s.focus.region <;> rfl
  · show byteOf s.focus.cause.code = _
    cases s.focus.cause <;> rfl
  · show byteOf (flagNum s.focus.lock + 2 * flagNum s.focus.detached) = _
    cases s.focus.lock <;> cases s.focus.detached <;> rfl
  · have hbyte : data.getD (8 + i.val) 0 = byteOf (optNum s.focus.history[i.val]?) := by
      fin_cases i
      exacts [hitem 5, hitem 6, hitem 7, hitem 8]
    rw [hbyte]
    cases s.focus.history[i.val]? <;> rfl

theorem State.shows_glideUnit {s : State} {data tail : List Byte} (h : data.drop 12 = s.readBlock .glideUnit [] ++ tail) :
    s.Shows .glideUnit data := by
  have hslice := take_of_drop h
  have hflag : data.getD 18 0 = byteOf (flagNum s.glide.detached.isSome) := getD_of_drop h 6
  have hx : (data.drop 19).take 3 = beBytes 3 (s.glide.detached.getD (0, 0)).1 := hslice 7 3
  have hy : (data.drop 22).take 3 = beBytes 3 (s.glide.detached.getD (0, 0)).2 := hslice 10 3
  refine ⟨fun hpx => ?_, fun hpy => ?_, fun hnone => ?_, fun x y hsome => ⟨?_, fun hxs => ?_, fun hys => ?_⟩⟩
  · exact (congrArg beValue (hslice 0 3)).trans (beValue_beBytes_three hpx)
  · exact (congrArg beValue (hslice 3 3)).trans (beValue_beBytes_three hpy)
  · have hseven : (data.drop 18).take 7 = byteOf (flagNum s.glide.detached.isSome) ::
        (beBytes 3 (s.glide.detached.getD (0, 0)).1 ++ beBytes 3 (s.glide.detached.getD (0, 0)).2) := hslice 6 7
    rw [hseven, hnone]
    rfl
  · rw [hflag, hsome]
    rfl
  · rw [hx, hsome]
    exact beValue_beBytes_three hxs
  · rw [hy, hsome]
    exact beValue_beBytes_three hys

theorem State.shows_targetPorts {s : State} {data tail : List Byte} (h : data.drop 25 = s.readBlock .targetPorts [] ++ tail) :
    s.Shows .targetPorts data := by
  intro u
  have hbyte : data.getD (25 + u.val) 0 = byteOf (s.targets[u].power.code + 16 * modeCode s.targets[u].mode) := by
    have hitem := getD_of_drop h u.val
    rw [hitem]
    fin_cases u <;> rfl
  rw [hbyte]
  cases s.targets[u].power <;> cases s.targets[u].mode <;> rfl

theorem State.shows_videoHeads {s : State} {data tail : List Byte} (h : data.drop 33 = s.readBlock .videoHeads [] ++ tail) :
    s.Shows .videoHeads data := by
  intro k
  have hcode : nibbleAt data 33 k.val = s.heads[k].lock.code := by
    refine nibbleAt_of_pairs (m := 6) (item := fun i => s.heads[i].lock.code) (fun _ => LockState.code_lt _) (fun i => ?_) k
    have hitem := getD_of_drop h i.val
    rw [hitem]
    fin_cases i <;> rfl
  rw [hcode]
  cases s.heads[k].lock <;> rfl

/-! ## The section GENERAL -/

/-- What the reads at the blocks collect, each under the state it finds. -/
def sectionData (found : StatusBlock → State) (blocks : List StatusBlock) : List Byte :=
  blocks.foldl (fun d k => (found k).readBlock k d) []

theorem general_shows (found : StatusBlock → State) : ∀ k ∈ generalBlocks, (found k).Shows k (sectionData found generalBlocks) := by
  simp only [generalBlocks, List.forall_mem_cons]
  exact ⟨State.shows_controlEngine rfl, State.shows_wakeUnit rfl, State.shows_layoutStore rfl, State.shows_focusUnit rfl,
    State.shows_glideUnit rfl, State.shows_targetPorts rfl, State.shows_videoHeads (tail := []) rfl, nofun⟩

theorem general_length (found : StatusBlock → State) : (sectionData found generalBlocks).length = 39 := rfl

/-! ## The section PORT -/

theorem port_data (found : StatusBlock → State) (p : Port) :
    sectionData found [.consolePort p] = (found (.consolePort p)).ports[p].bytes := rfl

theorem State.shows_consolePort (p : Port) (s : State) : s.Shows (.consolePort p) s.ports[p].bytes := by
  have hbuttons : byteOf s.ports[p].supButtons.toNat = s.ports[p].supButtons.setWidth 8 := BitVec.ofNat_toNat ..
  rw [ConsolePort.bytes, hbuttons]
  refine congrArg (fun c : Byte => [c, s.ports[p].supMods, s.ports[p].supButtons.setWidth 8] ++ s.ports[p].supKeys) ?_
  rcases s.ports[p].cls with _ | _ | _ | _ <;> cases s.ports[p].attached <;> rfl

theorem ConsolePort.bytes_length (c : ConsolePort) : c.bytes.length = 3 + c.supKeys.length := by
  rw [ConsolePort.bytes, List.length_append, List.length_cons, List.length_cons, List.length_singleton]

/-! ## The section TARGET -/

theorem target_data (found : StatusBlock → State) (u : Target) : sectionData found [.inputState u, .targetPort u] =
    (found (.targetPort u)).targets[u].joinBytes (found (.inputState u)).keyStates[u].bytes := rfl

/-- Byte 6 carries the fifth button's sources low and the resync flag above them. -/
theorem joinBytes_six (p : TargetPort) (ks : KeyState) :
    (p.joinBytes ks.bytes).getD 6 0 = byteOf (ks.buttons[4].toNat + 16 * flagNum p.resync) := (BitVec.ofNat_add ..).symm

theorem byteOf_bit_four {a : Nat} (ha : a < 16) (flag : Bool) : (byteOf (a + 16 * flagNum flag)).getLsbD 4 = flag := by
  have hbit : (a + 16 * flagNum flag).testBit 4 = (flagNum flag).testBit 0 := by
    rw [Nat.add_comm, Nat.testBit_two_pow_mul_add (i := 4) _ ha]
    rfl
  rw [byteOf, BitVec.getLsbD_ofNat, hbit]
  cases flag <;> rfl

theorem State.shows_inputState (u : Target) (s : State) (p : TargetPort) :
    s.Shows (.inputState u) (p.joinBytes s.keyStates[u].bytes) := by
  have hflag : flagNum p.resync < 16 := by cases p.resync <;> decide
  have hbutton : ∀ i : Button, s.keyStates[u].buttons[i].toNat < 16 := fun i => BitVec.isLt _
  refine ⟨?_, fun i => ?_, ?_, ?_⟩
  · refine nibbleAt_of_pairs (m := 4) (item := fun m => s.keyStates[u].mods[m].toNat) (fun m => BitVec.isLt _) fun i => ?_
    fin_cases i <;> rfl
  · fin_cases i
    exacts [nibbleAt_even (i := 0) rfl (hbutton 0), nibbleAt_odd (i := 0) rfl (hbutton 0) (hbutton 1),
      nibbleAt_even (i := 1) rfl (hbutton 2), nibbleAt_odd (i := 1) rfl (hbutton 2) (hbutton 3),
      nibbleAt_even (i := 2) (joinBytes_six p _) (hbutton 4)]
  · exact beValue_beBytes_two (BitVec.isLt _)
  · exact congrArg s.keyStates[u].keys.flatMap (funext KeyEntry.bytes_eq)

theorem State.shows_targetPort (u : Target) (s : State) (ks : KeyState) : s.Shows (.targetPort u) (s.targets[u].joinBytes ks.bytes) := by
  refine ⟨?_, rfl⟩
  rw [joinBytes_six]
  exact byteOf_bit_four (BitVec.isLt _) _

theorem joinBytes_length (p : TargetPort) (ks : KeyState) : (p.joinBytes ks.bytes).length = 12 + 4 * ks.keys.length := by
  have hfixed : (p.joinBytes ks.bytes).length = (ks.keys.flatMap KeyEntry.bytes).length + 12 := rfl
  rw [hfixed, KeyEntry.flatMap_bytes_length, Nat.add_comm]

/-! ## Every section -/

theorem StatusCovers.shows {b : Byte} {blocks : List StatusBlock} (h : StatusCovers b blocks) (found : StatusBlock → State) :
    ∀ k ∈ blocks, (found k).Shows k (sectionData found blocks) := by
  rcases h with ⟨-, rfl⟩ | ⟨u, -, rfl⟩ | ⟨p, -, rfl⟩
  · exact general_shows found
  · rw [target_data, List.forall_mem_cons, List.forall_mem_singleton]
    exact ⟨State.shows_inputState .., State.shows_targetPort ..⟩
  · rw [port_data, List.forall_mem_singleton]
    exact State.shows_consolePort ..

theorem StatusCovers.general {blocks : List StatusBlock} (h : StatusCovers 0 blocks) : blocks = generalBlocks := by
  have hzero : (0 : Byte).toNat = 0 := rfl
  rcases h with ⟨-, rfl⟩ | ⟨u, hu, -⟩ | ⟨p, hp, -⟩
  · rfl
  · omega
  · omega

end Sys2Proof.Machine

open Sys2Proof Sys2Proof.Machine

/-- Settles O49: how the rows begin, go on and end, what the reads collect (`StatusCovers.shows`), and what waits meanwhile. -/
theorem statusReadReportsAndChangesNothing : Obligations.StatusReadReportsAndChangesNothing := by
  refine ⟨fun t f b s h hargs => ⟨fun first left hcovers => ?_, fun blocks hcovers => ?_, fun hzero hrange => ?_⟩,
    fun u sought data s hreset => ⟨fun k left he => exec_statusRead_block hreset he, fun he => ⟨?_, ?_⟩⟩,
    fun found b blocks hcovers => ⟨StatusCovers.shows hcovers found, ?_, ?_, ?_⟩,
    fun c u sought left data s he hrow => exec_controlRow_waits he rfl c hrow⟩
  · exact h.exec_statusRead_begins (hargs ▸ StatusCovers.statusBlocks hcovers)
  · exact ⟨sectionData (fun _ => s) blocks,
      h.execTimes_statusRead (hargs ▸ StatusCovers.statusBlocks hcovers) (StatusCovers.ne_nil hcovers), StatusCovers.shows hcovers fun _ => s⟩
  · have hsection : statusBlocks (arg [b] 1) = none := statusBlocks_none (fun e => hzero (BitVec.eq_of_toNat_eq e)) hrange
    exact h.exec_statusRead_refused (hargs ▸ hsection)
  · rintro rfl
    exact exec_statusRead_dropsReply hreset he
  · rintro f rfl hattached
    exact exec_statusRead_replies hreset he hattached
  · rintro rfl
    obtain rfl := StatusCovers.general hcovers
    exact general_length found
  · rintro u rfl
    exact joinBytes_length ..
  · rintro p rfl
    exact ConsolePort.bytes_length _
end

section
/-! PROOFS. The check of a frame: what the receiving port makes of an envelope, and one altered payload byte (R179, O53). -/

namespace Sys2Proof.Machine

/-! ## The sum over kind, length and payload (R179) -/

theorem frameCheck_lt (kind : Byte) (payload : List Byte) : frameCheck kind payload < 2 ^ 16 := Nat.mod_lt _ (by decide)

/-- A byte changes the sum by less than 65536, so no two values of one payload byte share a check. -/
theorem frameCheck_altered_ne {b b' : Byte} (kind : Byte) (pre post : List Byte) (h : b' ≠ b) :
    frameCheck kind (pre ++ b :: post) ≠ frameCheck kind (pre ++ b' :: post) := by
  have hvalue : b'.toNat ≠ b.toNat := fun e => h (BitVec.eq_of_toNat_eq e)
  have hb : b.toNat < 256 := b.isLt
  have hb' : b'.toNat < 256 := b'.isLt
  simp only [frameCheck, List.length_append, List.length_cons, List.map_append, List.map_cons, List.sum_append, List.sum_cons]
  omega

/-! ## What the receiving port makes of an envelope (R179) -/

/-- The two check bytes are told from the payload by their place, so the four cases of R179 come down to the length byte and the sum. -/
theorem openFrame_envelope {check : Nat} (kind len : Byte) (payload : List Byte) (hcheck : check < 2 ^ 16) :
    openFrame (kind :: len :: (payload ++ beBytes 2 check)) =
      if len.toNat ≤ 62 ∧ len.toNat = payload.length ∧ check = frameCheck kind payload then some (kind, payload) else none := by
  have hlength : (payload ++ beBytes 2 check).length = payload.length + 2 := by rw [List.length_append, beBytes_length]
  simp only [openFrame, hlength, Nat.add_sub_cancel, List.take_left, List.drop_left, beValue_beBytes_two hcheck, Config.payloadMax,
    Nat.le_add_left, true_and]

theorem openFrame_sealFrame {payload : List Byte} (kind : Byte) (h : payload.length ≤ 62) :
    openFrame (sealFrame kind payload) = some (kind, payload) := by
  have hlen : (BitVec.ofNat 8 payload.length).toNat = payload.length := by
    rw [BitVec.toNat_ofNat]
    omega
  rw [sealFrame, openFrame_envelope kind _ payload (frameCheck_lt kind payload), hlen, if_pos ⟨h, rfl, rfl⟩]

theorem openFrame_wrongCheck {check : Nat} {kind : Byte} {payload : List Byte} (len : Byte) (hcheck : check < 2 ^ 16)
    (hne : check ≠ frameCheck kind payload) : openFrame (kind :: len :: (payload ++ beBytes 2 check)) = none := by
  rw [openFrame_envelope kind len payload hcheck, if_neg fun ⟨_, _, heq⟩ => hne heq]

/-! ## A frame that fails the check is no command on any lane (R24, R102) -/

theorem consoleCommand_of_openFrame_none {bytes : List Byte} (p : Port) (h : openFrame bytes = none) : consoleCommand p bytes = none := by
  rw [consoleCommand, h]

theorem targetCommand_of_openFrame_none {bytes : List Byte} (t : Target) (h : openFrame bytes = none) : targetCommand t bytes = none := by
  rw [targetCommand, h]

end Sys2Proof.Machine

open Sys2Proof Sys2Proof.Machine

/-- Settles O53: a sealed frame opens, and an altered byte leaves the carried check unequal to the sum of what arrived. -/
theorem frameCheckPassesWholeAndRefusesAlteredFrames : Obligations.FrameCheckPassesWholeAndRefusesAlteredFrames := by
  refine ⟨fun f hlength => openFrame_sealFrame f.kind hlength, fun kind b b' pre post p t _ hb => ?_⟩
  have hfails := openFrame_wrongCheck (BitVec.ofNat 8 (pre ++ b :: post).length) (frameCheck_lt kind (pre ++ b :: post))
    (frameCheck_altered_ne kind pre post hb)
  exact ⟨hfails, consoleCommand_of_openFrame_none p hfails, targetCommand_of_openFrame_none t hfails⟩
end

section
/-! PROOFS. A step takes the front command, and no command touches the queue (O1, O2). -/

namespace Sys2Proof.Machine

/-! ## A step by what the queue holds -/

theorem step_cons {c : Instr} {rest : List Instr} {s : State} (h : s.pending = c :: rest) :
    step s = exec c { s with pending := rest } := by
  rw [step, h]

theorem step_idle {s : State} (h : s.pending = []) (he : s.executing = none) : step s = .next s := by
  rw [step, h, he]

theorem step_goesOn {s : State} {e : Execution} (h : s.pending = []) (he : s.executing = some e) : step s = exec e.work.row s := by
  rw [step, h, he]

/-! ## Shared operations leave the queue -/

theorem State.FocusChangeOnly.pending {s t : State} (h : s.FocusChangeOnly t) : t.pending = s.pending := (congrArg State.pending h.1 :)

theorem State.Delivers.pending {s t : State} (h : s.Delivers t) : t.pending = s.pending := (congrArg State.pending h :)

theorem State.BooksOnly.pending {s t : State} (h : s.BooksOnly t) : t.pending = s.pending := (congrArg State.pending h :)

theorem ite_pending {c : Prop} [Decidable c] {s a b : State} (ha : a.pending = s.pending) (hb : b.pending = s.pending) :
    (if c then a else b).pending = s.pending := by
  split
  · exact ha
  · exact hb

theorem foldl_pending {α : Type} {f : State → α → State} (h : ∀ (s : State) (a : α), (f s a).pending = s.pending) (l : List α) (s : State) :
    (l.foldl f s).pending = s.pending := by
  induction l generalizing s with
  | nil => rfl
  | cons a l ih => exact (ih _).trans (h s a)

@[simp] theorem State.portEnd_pending (t : Target) (s : State) : (s.portEnd t).pending = s.pending := rfl

@[simp] theorem State.sendTo_pending (t : Target) (f : OutFrame) (s : State) : (s.sendTo t f).pending = s.pending :=
  (s.sendTo_delivers t f).pending

@[simp] theorem State.announceView_pending (v : ModSet × List Key) (t : Target) (s : State) : (s.announceView v t).pending = s.pending :=
  (s.announceView_delivers v t).pending

@[simp] theorem State.wakeRequest_pending (t : Target) (s : State) : (s.wakeRequest t).pending = s.pending :=
  (s.wakeRequest_delivers t).pending

@[simp] theorem State.directed_pending (t : Target) (c : Cause) (m : ModSet) (s : State) : (s.directed t c m).pending = s.pending :=
  (s.directed_focusOnly t c m).pending

@[simp] theorem State.reevaluate_pending (c : Cause) (m : ModSet) (s : State) : (s.reevaluate c m).pending = s.pending :=
  (s.reevaluate_focusOnly c m).pending

@[simp] theorem State.checkMismatch_pending (c : Display → Bool) (s : State) : (s.checkMismatch c).pending = s.pending :=
  (s.checkMismatch_delivers c).pending

@[simp] theorem State.reply_pending (t : Target) (f : ControlFrame) (a : Answer) (s : State) : (s.reply t f a).pending = s.pending :=
  (s.reply_delivers t f a).pending

@[simp] theorem State.teardown_pending (t : Target) (s : State) : (s.teardown t).pending = s.pending :=
  (congrArg State.pending (s.teardown_eq t) :)

/-! ## Presses, releases and hotkey actions -/

@[simp] theorem State.keyPress_pending (p : Port) (t : Target) (i : KeyItem) (s : State) : (s.keyPress p t i).pending = s.pending := by
  have hbooked : (s.bookPress p t i.item).pending = (s.wokenByPress t).pending := (congrArg State.pending (s.bookPress_eq p t i.item) :)
  rw [State.keyPress, State.announceView_pending, hbooked, (s.wokenByPress_delivers t).pending]

@[simp] theorem State.keyRelease_pending (p : Port) (i : KeyItem) (s : State) : (s.keyRelease p i).pending = s.pending := by
  unfold State.keyRelease
  repeat' split
  all_goals simp

@[simp] theorem State.focusAction_pending (e : HotkeyEntry) (m : ModSet) (t : Target) (s : State) :
    (s.focusAction e m t).pending = s.pending :=
  ite_pending rfl (s.directed_pending ..)

@[simp] theorem State.setShown_pending (set : WindowSet) (s : State) : (s.setShown set).pending = s.pending := rfl

@[simp] theorem State.windowToggle_pending (w : Window) (m : ModSet) (s : State) : (s.windowToggle w m).pending = s.pending :=
  ite_pending (State.reevaluate_pending ..) rfl

@[simp] theorem State.applyPreset_pending (e : HotkeyEntry) (m : ModSet) (s : State) : (s.applyPreset e m).pending = s.pending := by
  unfold State.applyPreset
  dsimp only
  split <;> split <;> simp

@[simp] theorem State.fire_pending (e : HotkeyEntry) (m : ModSet) (s : State) : (s.fire e m).pending = s.pending := by
  unfold State.fire
  split
  case h_2 | h_3 => split <;> simp
  case h_4 | h_5 | h_9 => rfl
  all_goals simp

/-! ## The detector -/

@[simp] theorem State.settlePress_pending (e : HotkeyEntry) (p : Port) (i : KeyItem) (s : State) :
    (s.settlePress e p i).pending = s.pending :=
  ite_pending (s.keyPress_pending ..) rfl

@[simp] theorem State.pressIdle_pending (p : Port) (i : KeyItem) (held : ModSet) (s : State) :
    (s.pressIdle p i held).1.pending = s.pending := by
  unfold State.pressIdle State.handPress
  split <;> simp

@[simp] theorem State.detectPress_pending (p : Port) (i : KeyItem) (held : ModSet) (s : State) :
    (s.detectPress p i held).1.pending = s.pending := by
  unfold State.detectPress
  split
  · exact s.pressIdle_pending p i held
  · unfold State.pressTapWait State.handPress
    dsimp only
    split <;> simp
  · unfold State.pressLeader
    dsimp only
    split <;> simp

@[simp] theorem State.detectRelease_pending (p : Port) (i : KeyItem) (s : State) : (s.detectRelease p i).pending = s.pending := by
  unfold State.detectRelease
  dsimp only
  split <;> simp

/-! ## Pointer events -/

@[simp] theorem State.buttonsAndReport_pending (e : PointerEvent) (dest : Option Target) (receiver : Target) (q : Option (Nat × Nat))
    (entry : Bool) (s : State) : (s.buttonsAndReport e dest receiver q entry).pending = s.pending := by
  have hwoken : (if e.presses = 0 then s else s.wokenFor dest).pending = s.pending := ite_pending rfl (s.wokenFor_focusOnly dest).pending
  exact (s.buttonsAndReport_delivers ..).pending.trans ((s.accountButtons_booksOnly e dest).pending.trans hwoken)

@[simp] theorem State.completeRelease_pending (e : PointerEvent) (s : State) : (s.completeRelease e).pending = s.pending :=
  ite_pending (s.reevaluate_pending ..) rfl

@[simp] theorem State.pointerEvent_pending (e : PointerEvent) (s : State) : (s.pointerEvent e).pending = s.pending := by
  have harrived : (s.arrived e).pending = s.pending := (s.arrived_focusOnly e).pending
  unfold State.pointerEvent
  split
  · simp [State.pinnedMotion]
  · split
    · simp [State.detachedMotion]
    · rw [State.followingMotion, State.completeRelease_pending, State.buttonsAndReport_pending]
      exact harrived

/-! ## The merge engine -/

theorem State.handRelease_pending (p : Port) (s : State) (i : KeyItem) : (s.handRelease p i).pending = s.pending :=
  ite_pending (s.detectRelease_pending p i) (s.keyRelease_pending p i)

theorem State.handOnPress_pending (p : Port) (mods : ModSet) (a : State × Bool) (i : KeyItem) :
    (State.handOnPress p mods a i).1.pending = a.1.pending := by
  unfold State.handOnPress State.consumePress
  repeat' split
  all_goals simp

theorem State.foldl_handOnPress_pending (p : Port) (mods : ModSet) (l : List KeyItem) (a : State × Bool) :
    (l.foldl (State.handOnPress p mods) a).1.pending = a.1.pending := by
  induction l generalizing a with
  | nil => rfl
  | cons i l ih => exact (ih _).trans (State.handOnPress_pending p mods a i)

@[simp] theorem State.takeKeys_pending (p : Port) (mods : ModSet) (list : List Key) (swallowed : Bool) (s : State) :
    (s.takeKeys p mods list swallowed).pending = s.pending := by
  have hreleased : (s.keysReleased p mods (cleanKeys list)).pending = s.pending := foldl_pending (State.handRelease_pending p) _ s
  rw [State.takeKeys_eq, State.modPort_pending, State.keysPressed]
  split
  · exact hreleased
  · exact (State.foldl_handOnPress_pending ..).trans hreleased

@[simp] theorem State.handButtonReleases_pending (p : Port) (b r : ButtonSet) (s : State) :
    (s.handButtonReleases p b r).pending = s.pending :=
  ite_pending rfl (s.pointerEvent_pending _)

@[simp] theorem State.takeMotion_pending (p : Port) (dx dy wheel : Int) (b : ButtonSet) (swallowed : Bool) (s : State) :
    (s.takeMotion p dx dy wheel b swallowed).pending = s.pending := by
  unfold State.takeMotion State.setHeld
  dsimp only
  split <;> simp

@[simp] theorem State.takeReleaseAll_pending (p : Port) (s : State) : (s.takeReleaseAll p).pending = s.pending := by
  simp [State.takeReleaseAll, foldl_pending (State.handRelease_pending p)]

theorem State.mergeTake_pending (s : State) : s.mergeTake.pending = s.pending := by
  unfold State.mergeTake
  split
  · rfl
  · split
    · rfl
    · rename_i e _ _
      cases e <;> simp [State.takeEntry]

/-! ## Console lanes, target lanes, power states -/

@[simp] theorem State.storeFifo_pending (p : Port) (l : Option (List FifoEntry)) (s : State) : (s.storeFifo p l).pending = s.pending := by
  cases l <;> rfl

@[simp] theorem State.arriveKeys_pending (p : Port) (mods : ModSet) (l : KeyList) (s : State) : (s.arriveKeys p mods l).pending = s.pending := by
  cases l <;> simp [State.arriveKeys]

@[simp] theorem State.arriveMotion_pending (p : Port) (dx dy : BitVec 16) (wheel buttons : Byte) (s : State) :
    (s.arriveMotion p dx dy wheel buttons).pending = s.pending := by
  simp [State.arriveMotion]

theorem State.detachConsole_pending (p : Port) (s : State) : (s.detachConsole p).pending = s.pending :=
  ite_pending rfl rfl

theorem State.detachTarget_pending (t : Target) (s : State) : (s.detachTarget t).pending = s.pending :=
  ite_pending (s.teardown_pending t) rfl

theorem State.attachTarget_pending (t : Target) (m : Mode) (s : State) : (s.attachTarget t m).pending = s.pending :=
  ite_pending (s.teardown_pending t) rfl

theorem State.changeMode_pending (t : Target) (m : Mode) (s : State) : (s.changeMode t m).pending = s.pending :=
  (congrArg State.pending (s.changeMode_eq t m) :)

theorem State.grantCredit_pending (t : Target) (n : Nat) (s : State) : (s.grantCredit t n).pending = s.pending := rfl

theorem State.reportLeds_pending (t : Target) (leds : LedSet) (s : State) : (s.reportLeds t leds).pending = s.pending := rfl

theorem State.offerControl_pending (t : Target) (f : ControlFrame) (s : State) : (s.offerControl t f).pending = s.pending :=
  ite_pending (s.sendTo_pending ..) rfl

theorem State.sendReport_pending (t : Target) (s : State) : (s.sendReport t).pending = s.pending := by
  unfold State.sendReport
  split
  · rfl
  · split <;> simp

theorem State.stallExpiry_pending (t : Target) (s : State) : (s.stallExpiry t).pending = s.pending :=
  ite_pending rfl rfl

@[simp] theorem State.takePower_pending (t : Target) (v : PowerValue) (s : State) : (s.takePower t v).pending = s.pending := by
  unfold State.takePower
  split <;> rfl

theorem State.wakeExpiry_pending (t : Target) (s : State) : (s.wakeExpiry t).pending = s.pending := by
  unfold State.wakeExpiry State.failWake
  repeat' split
  all_goals simp

theorem State.idleExpiry_pending (s : State) : s.idleExpiry.pending = s.pending := ite_pending rfl (ite_pending rfl rfl)

/-! ## Heads, displays, layouts and resets -/

theorem State.headFrameEnd_pending (h : Head) (g : Geometry) (picture : Nat) (s : State) : (s.headFrameEnd h g picture).pending = s.pending := by
  unfold State.headFrameEnd State.afterLock
  dsimp only
  split
  · split <;> simp
  · rfl

theorem State.displayFrame_pending (d : Display) (s : State) : (s.displayFrame d).pending = s.pending :=
  ite_pending (congrArg State.pending (s.composeFrame_frame d) :) rfl

@[simp] theorem State.completeLayout_pending (s : State) : s.completeLayout.pending = s.pending := by
  rw [State.completeLayout_eq, State.checkMismatch_pending, s.released_focusOnly.pending]
  rfl

@[simp] theorem State.resetFocus_pending (s : State) : s.resetFocus.pending = s.pending := by
  unfold State.resetFocus
  split <;> rfl

theorem State.hardReset_pending (s : State) : s.hardReset.pending = s.pending := State.resetFocus_pending _

theorem State.releaseReset_pending (s : State) : s.releaseReset.pending = s.pending := ite_pending rfl rfl

theorem State.takePart_pending (stage : ResetStage) (s : State) : (s.takePart stage).pending = s.pending := by
  cases stage with
  | focusUnit =>
    have hcleared : ((List.finRange 8).foldl (fun acc t => acc.clearInput t) s).pending = s.pending :=
      foldl_pending (fun x t => x.clearInput_pending t) _ s
    simp [State.takePart, State.deskResetFocus, State.ledsToFollowers, hcleared]
  | targetPorts => exact foldl_pending (fun x t => x.portEnd_pending t) _ _
  | compositor | layoutStore | noticeRecord | answer => rfl

/-! ## The control engine -/

theorem State.takeFrame_pending (c : Option ControlCommand) {run : Target → ControlFrame → State → State}
    (h : ∀ (t : Target) (f : ControlFrame) (s : State), (run t f s).pending = s.pending) (s : State) :
    (s.takeFrame c run).pending = s.pending := by
  unfold State.takeFrame
  dsimp only
  repeat' split
  all_goals simp [h]

theorem State.control_pending (c : Option ControlCommand) {body : Target → List Byte → State → State × Answer}
    (h : ∀ (t : Target) (args : List Byte) (s : State), (body t args s).1.pending = s.pending) (s : State) :
    (s.control c body).pending = s.pending :=
  State.takeFrame_pending c (fun t f x => (State.reply_pending ..).trans (h t f.args x)) s

theorem State.doTableRead_pending (t : Target) (args : List Byte) (s : State) : (s.doTableRead t args).1.pending = s.pending := by
  unfold State.doTableRead
  split <;> rfl

theorem State.doTableWrite_pending (t : Target) (args : List Byte) (s : State) : (s.doTableWrite t args).1.pending = s.pending := by
  unfold State.doTableWrite
  dsimp only
  split
  · split
    · rfl
    · obtain ⟨hwrite, -, -⟩ := State.writeEntry_frame t _ _ s
      exact (congrArg State.pending hwrite :)
  · rfl

theorem State.doLayoutHold_pending (t : Target) (args : List Byte) (s : State) : (s.doLayoutHold t args).1.pending = s.pending := by
  unfold State.doLayoutHold
  split
  · rfl
  · split <;> rfl

theorem State.doLayoutAbandon_pending (t : Target) (args : List Byte) (s : State) : (s.doLayoutAbandon t args).1.pending = s.pending := by
  unfold State.doLayoutAbandon
  split <;> rfl

theorem State.doLayoutRelease_pending (t : Target) (args : List Byte) (s : State) : (s.doLayoutRelease t args).1.pending = s.pending := by
  unfold State.doLayoutRelease
  repeat' split
  all_goals simp

theorem State.doFocusSet_pending (t : Target) (args : List Byte) (s : State) : (s.doFocusSet t args).1.pending = s.pending := by
  unfold State.doFocusSet
  split <;> simp

theorem State.doWake_pending (t : Target) (args : List Byte) (s : State) : (s.doWake t args).1.pending = s.pending := by
  unfold State.doWake
  split <;> simp

theorem State.doWindowShow_pending (t : Target) (args : List Byte) (s : State) : (s.doWindowShow t args).1.pending = s.pending := by
  unfold State.doWindowShow State.showWindow
  dsimp only
  repeat' split
  all_goals simp

theorem State.doNoticeClear_pending (t : Target) (args : List Byte) (s : State) : (s.doNoticeClear t args).1.pending = s.pending := by
  unfold State.doNoticeClear
  dsimp only
  repeat' split
  all_goals rfl

theorem State.doNoticeSubscribe_pending (t : Target) (args : List Byte) (s : State) :
    (s.doNoticeSubscribe t args).1.pending = s.pending := by
  unfold State.doNoticeSubscribe
  repeat' split
  all_goals rfl

@[simp] theorem State.finish_pending (e : Execution) (a : Answer) (s : State) : (s.finish e a).pending = s.pending := by
  unfold State.finish
  dsimp only
  split <;> simp

@[simp] theorem State.goOn_pending (e : Execution) (s : State) : (s.goOn e).pending = s.pending := by
  unfold State.goOn
  split
  · split
    · exact s.takePart_pending _
    · simp
  · rfl
  · simp

theorem State.beginStatusRead_pending (t : Target) (f : ControlFrame) (s : State) : (s.beginStatusRead t f).pending = s.pending := by
  unfold State.beginStatusRead
  split <;> simp

theorem State.controlPart_pending (c : ControlCommand) {start : Target → ControlFrame → State → State}
    (h : ∀ (t : Target) (f : ControlFrame) (s : State), (start t f s).pending = s.pending) (s : State) :
    (s.controlPart c start).pending = s.pending := by
  rcases s.controlPart_cases c start with ⟨-, heq⟩ | ⟨e, -, -, heq⟩ | ⟨e, -, -, heq⟩ <;> rw [heq]
  · exact State.takeFrame_pending _ h s
  · exact s.goOn_pending e

/-! ## Every command -/

theorem running_pending {f : State → State} {s t : State} (hr : running s f = .next t) (h : ∀ s : State, (f s).pending = s.pending) :
    t.pending = s.pending := by
  obtain rfl := Host.Outcome.next.inj hr
  exact ite_pending rfl (h s)

theorem onAttached_pending (u : Target) {f : State → State} (h : ∀ s : State, (f s).pending = s.pending) (s : State) :
    (onAttached u f s).pending = s.pending := ite_pending (h s) rfl

theorem exec_pending {c : Instr} {s t : State} (h : exec c s = .next t) : t.pending = s.pending := by
  cases c with
  | powerOn cfgt lock =>
    obtain rfl := Host.Outcome.next.inj h
    rfl
  | hardReset =>
    obtain rfl := Host.Outcome.next.inj h
    exact s.hardReset_pending
  | resetNRelease =>
    obtain rfl := Host.Outcome.next.inj h
    exact s.releaseReset_pending
  | cAttach p cls => exact running_pending h fun _ => rfl
  | cKeys p mods l =>
    unfold exec execCKeys at h
    exact running_pending h fun x => ite_pending rfl (ite_pending (x.arriveKeys_pending p mods l) rfl)
  | cMotion p dx dy wheel buttons =>
    unfold exec execCMotion at h
    exact running_pending h fun x => ite_pending (x.arriveMotion_pending p dx dy wheel buttons) rfl
  | cDetach p | consoleLaneLoss p => exact running_pending h (State.detachConsole_pending p)
  | mergeTakeEntry => exact running_pending h State.mergeTake_pending
  | tapDeadlineExpiry =>
    unfold exec execTapDeadlineExpiry at h
    exact running_pending h fun _ => ite_pending rfl rfl
  | leaderDeadlineExpiry =>
    unfold exec execLeaderDeadlineExpiry at h
    exact running_pending h fun _ => ite_pending rfl rfl
  | pAttach u m => exact running_pending h (State.attachTarget_pending u m)
  | pDetach u | targetLaneLoss u => exact running_pending h (State.detachTarget_pending u)
  | pMode u m => exact running_pending h (onAttached_pending u (State.changeMode_pending u m))
  | pCredit u n =>
    unfold exec execPCredit at h
    exact running_pending h fun x => ite_pending (onAttached_pending u (State.grantCredit_pending u n.toNat) x) rfl
  | pLeds u l =>
    unfold exec execPLeds at h
    exact running_pending h fun x => ite_pending (onAttached_pending u (State.reportLeds_pending u (l.setWidth 5)) x) rfl
  | pPower u v =>
    unfold exec execPPower at h
    exact running_pending h fun x => ite_pending (x.takePower_pending u v) rfl
  | pControl u tag command args =>
    unfold exec execPControl at h
    exact running_pending h fun x => ite_pending (onAttached_pending u (State.offerControl_pending u ⟨tag, command, args⟩) x) rfl
  | sendReport u => exact running_pending h (State.sendReport_pending u)
  | stallTimerExpiry u => exact running_pending h (State.stallExpiry_pending u)
  | wakeTimerExpiry u => exact running_pending h (State.wakeExpiry_pending u)
  | idleTimerExpiry => exact running_pending h State.idleExpiry_pending
  | signalArrival k | signalLoss k => exact running_pending h fun _ => rfl
  | headFrameEnd k g picture => exact running_pending h (State.headFrameEnd_pending k g picture)
  | displayFrameStart d => exact running_pending h (State.displayFrame_pending d)
  | tableRead => exact running_pending h (State.control_pending _ State.doTableRead_pending)
  | tableWrite => exact running_pending h (State.control_pending _ State.doTableWrite_pending)
  | layoutHold => exact running_pending h (State.control_pending _ State.doLayoutHold_pending)
  | layoutRelease => exact running_pending h (State.control_pending _ State.doLayoutRelease_pending)
  | layoutAbandon => exact running_pending h (State.control_pending _ State.doLayoutAbandon_pending)
  | focusSet => exact running_pending h (State.control_pending _ State.doFocusSet_pending)
  | wake => exact running_pending h (State.control_pending _ State.doWake_pending)
  | windowShow => exact running_pending h (State.control_pending _ State.doWindowShow_pending)
  | noticeClear => exact running_pending h (State.control_pending _ State.doNoticeClear_pending)
  | noticeSubscribe => exact running_pending h (State.control_pending _ State.doNoticeSubscribe_pending)
  | noticeRead | badCommand => exact running_pending h (State.control_pending _ fun _ _ _ => rfl)
  | statusRead => exact running_pending h (State.controlPart_pending _ State.beginStatusRead_pending)
  | deskReset => exact running_pending h (State.controlPart_pending _ fun _ _ _ => rfl)
  | badConsoleFrame p bytes =>
    unfold exec execBadConsoleFrame at h
    exact running_pending h fun _ => ite_pending rfl rfl
  | badTargetFrame u bytes =>
    unfold exec execBadTargetFrame at h
    exact running_pending h fun _ => ite_pending rfl rfl

end Sys2Proof.Machine

open Sys2Proof Sys2Proof.Machine

/-- Settles O1: the three cases of `step`, by the queue and by what the control engine is executing; the work of a command executed in parts
names the row that goes on with it. -/
theorem stepRunsTheFrontCommand : Obligations.StepRunsTheFrontCommand := by
  refine ⟨fun c s => step_cons rfl, fun s => step_idle, fun s e hqueue he => ⟨fun stage hwork => ?_, fun left data hwork => ?_⟩⟩
  · rw [step_goesOn hqueue he, hwork, EngineWork.row]
  · rw [step_goesOn hqueue he, hwork, EngineWork.row]

/-- Settles O2: each operation a command is made of leaves the queue, and POWER_ON hands it on. -/
theorem queueIsNotTouchedByCommands : Obligations.QueueIsNotTouchedByCommands := fun _ _ _ => exec_pending
end

section
/-! SUPPORT. One target port within its limits, and each thing that can happen at it keeps it there (R101 to R154). -/

namespace Sys2Proof.Machine

/-! ## A sound target port -/

/-- What holds of a target port also inside an event of it (R101, R104, R109, R113, R116 to R118, R145, R153, R154). -/
structure TargetPort.Orderly (p : TargetPort) : Prop where
  queueRoom  : p.queue.length ≤ Config.queueDepth
  holdRoom   : p.hold.length ≤ Config.holdDepth
  credit     : p.credit ≤ Config.creditMax
  homeLeft   : p.sync.homeLeft ≤ Config.homeStepsMax
  onePointer : p.hold.countP Report.isPointer ≤ 1
  oneSync    : p.queue.countP Report.isSync ≤ 1
  unmarked   : p.hold.countP Report.isSync = 0
  retry      : p.retry ≤ 1
  absent     : p.power = .absent ↔ p.attached = false
  queued     : p.queue ≠ [] → p.power = .active
  held       : p.hold ≠ [] → p.power = .waking
  timer      : p.wakeTimer.isSome = true ↔ p.power = .waking
  inbox      : p.inbox.isSome = true → p.attached = true
  resting    : p.power ≠ .active → p.sync.phase = .cleared ∨ p.sync.phase = .pending
  absolute   : p.mode = .absolute → p.sync.phase = .cleared

/-- What holds of a target port between its events: besides, the stall timer runs only while reports wait (R114). -/
structure TargetPort.Sound (p : TargetPort) : Prop extends p.Orderly where
  stall : p.stall.isSome = true → p.queue ≠ []

theorem TargetPort.sound_iff (p : TargetPort) : p.Sound ↔ p.Bounded ∧ p.PowerSound := by
  constructor
  · rintro ⟨⟨h1, h2, h3, h4, h5, h6, h7, h8, h9, h10, h11, h12, h13, h14, h15⟩, h16⟩
    exact ⟨⟨h1, h2, h3, h4, h5, h6, h7, h8⟩, h9, h10, h11, h12, h16, h13, h14, h15⟩
  · rintro ⟨⟨h1, h2, h3, h4, h5, h6, h7, h8⟩, h9, h10, h11, h12, h16, h13, h14, h15⟩
    exact ⟨⟨h1, h2, h3, h4, h5, h6, h7, h8, h9, h10, h11, h12, h13, h14, h15⟩, h16⟩

section
variable {p : TargetPort}

theorem TargetPort.Orderly.queue_nil (h : p.Orderly) (hp : p.power ≠ .active) : p.queue = [] :=
  Classical.not_not.1 fun hq => hp (h.queued hq)

theorem TargetPort.Orderly.hold_nil (h : p.Orderly) (hp : p.power ≠ .waking) : p.hold = [] :=
  Classical.not_not.1 fun hq => hp (h.held hq)

theorem TargetPort.Orderly.timer_none (h : p.Orderly) (hp : p.power ≠ .waking) : p.wakeTimer = none :=
  Option.not_isSome_iff_eq_none.1 fun ht => hp (h.timer.1 ht)

/-- A sync record in HOME, APPROACH or COMPLETE belongs to an ACTIVE port in a relative mode. -/
theorem TargetPort.Orderly.started (h : p.Orderly) (hc : p.sync.phase ≠ .cleared) (hp : p.sync.phase ≠ .pending) :
    p.power = .active ∧ p.mode ≠ .absolute :=
  ⟨Classical.not_not.1 fun ha => (h.resting ha).elim hc hp, fun hm => hc (h.absolute hm)⟩

/-! ## The delivery queue -/

theorem mergeDelivery_unmarked {m : Mode} {a b r : Report} (h : mergeDelivery m a b = some r) : r.isSync = false := by
  unfold mergeDelivery at h
  repeat' split at h
  all_goals cases h <;> rfl

/-- An offered report at an ACTIVE port: the queue stays within its depth and takes no sync report. -/
theorem TargetPort.Orderly.offer (h : p.Orderly) (c : Nat) {r : Report} (hr : r.isSync = false) (hp : p.power = .active) :
    (p.offer c r).Orderly := by
  unfold TargetPort.offer
  split
  · rename_i n hn
    rw [TargetPort.merged] at hn
    split at hn
    · obtain ⟨old, hlast, hmerge⟩ := Option.bind_eq_some_iff.1 hn
      obtain ⟨pre, hpre⟩ := List.getLast?_eq_some_iff.1 hlast
      have hlen := h.queueRoom
      have hsync := h.oneSync
      rw [hpre] at hlen hsync
      rw [List.countP_append] at hsync
      have hn' := mergeDelivery_unmarked hmerge
      rw [hpre, List.dropLast_concat]
      exact { h with
        queueRoom := by simpa using hlen
        oneSync := by
          show (pre ++ [n]).countP Report.isSync ≤ 1
          simp only [List.countP_append, List.countP_singleton, hn']
          simp; omega
        queued := fun _ => hp }
    · cases hn
  · split
    · exact { h with }
    · rename_i hfull
      have hroom : p.queue.length < 32 := by rwa [TargetPort.queueFull_iff, Nat.not_le] at hfull
      exact { h with
        queueRoom := by rw [List.length_append]; exact hroom
        oneSync := by
          show (p.queue ++ [r]).countP Report.isSync ≤ 1
          simpa [List.countP_append, hr] using h.oneSync
        queued := fun _ => hp }

theorem TargetPort.offer_power (c : Nat) (r : Report) (p : TargetPort) : (p.offer c r).power = p.power := by
  unfold TargetPort.offer
  split <;> [rfl; split <;> rfl]

/-! ## The hold queue -/

theorem updFirst_length {α : Type} (c : α → Bool) (f : α → α) (l : List α) : (updFirst c f l).length = l.length := by
  induction l with
  | nil => rfl
  | cons x xs ih => unfold updFirst; split <;> simp [ih]

theorem updNewest_length {α : Type} (c : α → Bool) (f : α → α) (l : List α) : (updNewest c f l).length = l.length := by
  rw [updNewest, List.length_reverse, updFirst_length, List.length_reverse]

/-- An update that gives no new entry a property counts no more entries with it. -/
theorem updFirst_countP_le {α : Type} {c d : α → Bool} {f : α → α} {l : List α}
    (h : ∀ x ∈ l, c x = true → d (f x) = true → d x = true) :
    (updFirst c f l).countP d ≤ l.countP d := by
  induction l with
  | nil => exact Nat.le_refl _
  | cons x xs ih =>
    obtain ⟨hx, hxs⟩ := List.forall_mem_cons.1 h
    unfold updFirst
    split
    · rename_i hc
      have := hx hc
      simp only [List.countP_cons]
      split
      · rw [if_pos (this ‹_›)]
      · exact Nat.add_le_add_left (Nat.zero_le _) _
    · simp only [List.countP_cons]
      exact Nat.add_le_add_right (ih hxs) _

theorem updNewest_countP_le {α : Type} {c d : α → Bool} {f : α → α} {l : List α}
    (h : ∀ x ∈ l, c x = true → d (f x) = true → d x = true) :
    (updNewest c f l).countP d ≤ l.countP d := by
  rw [updNewest, List.countP_reverse, ← List.countP_reverse (l := l)]
  exact updFirst_countP_le fun x hx => h x (List.mem_reverse.1 hx)

theorem mergeHold_unmarked (m : Mode) (a : Report) {r : Report} (hr : r.isSync = false) : (mergeHold m a r).isSync = false := by
  unfold mergeHold
  split
  · rfl
  · rfl
  · exact hr

/-- An offered report at a WAKING port: the hold queue stays within its depth, with one pointer report. -/
theorem TargetPort.Sound.offerHold (h : p.Sound) {r : Report} (hr : r.isSync = false) (hp : p.power = .waking) : (p.offerHold r).Sound := by
  have happend : p.holdFull = false → (r.isPointer = true → p.hold.any Report.isPointer = false) →
      ({ p with hold := p.hold ++ [r] } : TargetPort).Sound := fun hfull hpointer => by
    have hroom : p.hold.length < 16 := Nat.not_le.1 (of_decide_eq_false hfull)
    refine { h with holdRoom := by rw [List.length_append]; exact hroom, onePointer := ?_, unmarked := ?_, held := fun _ => hp }
    · show (p.hold ++ [r]).countP Report.isPointer ≤ 1
      cases hk : r.isPointer with
      | false => simpa [List.countP_append, hk] using h.onePointer
      | true =>
        have : p.hold.countP Report.isPointer = 0 := List.countP_eq_zero.2 fun x hx => by
          simpa using List.any_eq_false.1 (hpointer hk) x hx
        simp [List.countP_append, hk, this]
    · show (p.hold ++ [r]).countP Report.isSync = 0
      simpa [List.countP_append, hr] using h.unmarked
  unfold TargetPort.offerHold
  split
  · split
    · refine { h with
        holdRoom := by simpa [updFirst_length] using h.holdRoom
        onePointer := (updFirst_countP_le fun _ _ hc _ => hc).trans h.onePointer
        unmarked := Nat.le_zero.1 ((updFirst_countP_le fun x _ _ hm => ?_).trans h.unmarked.le)
        held := fun _ => hp }
      rw [mergeHold_unmarked _ _ hr] at hm
      cases hm
    · split
      · exact { h with }
      · exact happend (Bool.eq_false_iff.2 ‹_›) fun _ => Bool.eq_false_iff.2 ‹_›
  · rename_i hpointer
    split
    · refine { h with
        holdRoom := by simpa [updNewest_length] using h.holdRoom
        onePointer := (updNewest_countP_le fun _ _ _ hk => absurd hk hpointer).trans h.onePointer
        unmarked := Nat.le_zero.1 ((updNewest_countP_le fun _ _ _ hm => ?_).trans h.unmarked.le)
        held := fun _ => hp }
      rw [hr] at hm
      cases hm
    · exact happend (Bool.eq_false_iff.2 ‹_›) fun hk => absurd hk hpointer

/-! ## The end of an event -/

theorem TargetPort.Orderly.homeDone (h : p.Orderly) : p.homeDone.Orderly := by
  unfold TargetPort.homeDone
  split
  · rename_i hdone
    obtain ⟨hactive, hmode⟩ := h.started (by rw [hdone.1]; decide) (by rw [hdone.1]; decide)
    exact { h with resting := fun hp => absurd hactive hp, absolute := fun hm => absurd hm hmode }
  · exact h

/-- A report joins a queue with room that holds no sync report. -/
theorem TargetPort.Orderly.append (h : p.Orderly) (r : Report) (hp : p.power = .active) (hroom : p.queue.length < 32)
    (hr : r.isSync = true → p.queue.any Report.isSync = false) : ({ p with queue := p.queue ++ [r] } : TargetPort).Orderly := by
  refine { h with queueRoom := by rw [List.length_append]; exact hroom, oneSync := ?_, queued := fun _ => hp }
  show (p.queue ++ [r]).countP Report.isSync ≤ 1
  cases hk : r.isSync with
  | false => simpa [List.countP_append, hk] using h.oneSync
  | true =>
    have : p.queue.countP Report.isSync = 0 := List.countP_eq_zero.2 fun x hx => by simpa using List.any_eq_false.1 (hr hk) x hx
    simp [List.countP_append, hk, this]

theorem TargetPort.Orderly.nextSync (h : p.Orderly) (b : ButtonSet) (hdue : p.syncDue = true) : (p.nextSync b).Orderly := by
  obtain ⟨hactive, hmark, hroom⟩ := TargetPort.syncDue_iff.1 hdue
  unfold TargetPort.nextSync
  dsimp only
  split
  · have happend := h.append (.rel (-deltaLimit p.mode) (-deltaLimit p.mode) 0 (buttonsIn p.mode b) true) hactive hroom fun _ => hmark
    exact { happend with homeLeft := (Nat.sub_le _ _).trans h.homeLeft }
  · rename_i hphase
    obtain ⟨-, hmode⟩ := h.started (by rw [hphase]; decide) (by rw [hphase]; decide)
    split
    · exact { h with resting := fun hp => absurd hactive hp, absolute := fun hm => absurd hm hmode }
    · exact { h.append _ hactive hroom fun _ => hmark with }
  all_goals exact h

theorem TargetPort.Orderly.syncStep (h : p.Orderly) (b : ButtonSet) : (p.syncStep b).Orderly := by
  unfold TargetPort.syncStep
  split
  · exact h.homeDone.nextSync b ‹_›
  · exact h.homeDone

theorem TargetPort.stillReport_unmarked (z : DeskSize) (w : Int) (b : ButtonSet) (p : TargetPort) : (p.stillReport z w b).isSync = false := by
  unfold TargetPort.stillReport
  split <;> rfl

theorem TargetPort.Orderly.restateKeys (h : p.Orderly) (mods : ModSet) (list : List Key) (hp : p.power = .active) (hroom : p.queue.length < 32) :
    ({ p with queue := Machine.restateKeys mods list p.queue } : TargetPort).Orderly := by
  unfold Machine.restateKeys
  split
  · exact h
  · exact h.append _ hp hroom nofun

theorem TargetPort.Orderly.resyncStep (h : p.Orderly) (v : ModSet × List Key) (b : ButtonSet) (z : DeskSize) : (p.resyncStep v b z).Orderly := by
  rw [TargetPort.resyncStep_eq Iff.rfl]
  split
  · rename_i hdue
    obtain ⟨hp, -, hroom⟩ := hdue
    have hview := h.restateKeys v.1 v.2 hp hroom
    split
    · exact { hview.append (p.stillReport z 0 b) hp ‹_› fun hk => absurd hk (by simp [TargetPort.stillReport_unmarked]) with }
    · exact hview
  · exact h

theorem TargetPort.Orderly.stallStep (h : p.Orderly) (n : Nat) : (p.stallStep n).Sound := by
  rw [TargetPort.stallStep_eq rfl rfl]
  refine { h with stall := fun hs hq => ?_ }
  have hq : p.queue = [] := hq
  simp [hq] at hs

/-- The end of an event restores what the event left open. -/
theorem TargetPort.Orderly.finish (h : p.Orderly) (v : ModSet × List Key) (b : ButtonSet) (z : DeskSize) (n : Nat) : (p.finish v b z n).Sound :=
  ((h.syncStep b).resyncStep v b z).stallStep n

end

end Sys2Proof.Machine
end

section
/-! SUPPORT. Each change of one target port keeps it within its limits (R95 to R161). -/

namespace Sys2Proof.Machine

section
variable {p : TargetPort}

/-! ## The sync record (R116 to R120) -/

theorem TargetPort.Orderly.clearSync (h : p.Orderly) : p.clearSync.Orderly :=
  { h with resting := fun _ => .inl rfl, absolute := fun _ => rfl }

theorem TargetPort.Orderly.startHome (h : p.Orderly) (z : DeskSize) (hp : p.power = .active) (hm : p.mode ≠ .absolute) :
    (p.startHome z).Orderly :=
  { h with homeLeft := Nat.min_le_left .., resting := fun ha => absurd hp ha, absolute := fun ha => absurd ha hm }

theorem TargetPort.Orderly.requestSync (h : p.Orderly) (z : DeskSize) : (p.requestSync z).Orderly := by
  unfold TargetPort.requestSync
  split
  · exact h
  · rename_i hrelative
    have hm : p.mode ≠ .absolute := fun hm => hrelative (by rw [hm]; rfl)
    split
    · exact h.startHome z ‹_› hm
    · exact { h with resting := fun _ => .inr rfl, absolute := fun ha => absurd ha hm }
    · exact { h with resting := fun _ => .inr rfl, absolute := fun ha => absurd ha hm }
    · exact h

theorem TargetPort.Sound.abandonSync (h : p.Sound) : p.abandonSync.Sound := by
  unfold TargetPort.abandonSync
  split
  · exact { h.toOrderly.clearSync with stall := h.stall }
  · exact h

theorem TargetPort.Sound.setLast (h : p.Sound) (x y : Nat) : ({ p with lx := x, ly := y } : TargetPort).Sound := { h with }

/-! ## Queues emptied -/

/-- A port whose delivery queue is emptied and whose sync is cleared (R108, R112, R115, R147). -/
theorem TargetPort.Orderly.emptyQueue (h : p.Orderly) : p.emptyQueue.clearSync.Sound :=
  { h.clearSync with
    queueRoom := Nat.zero_le _
    oneSync := Nat.zero_le _
    queued := fun hq => absurd rfl hq
    stall := nofun }

/-- Besides the delivery queue the hold queue is emptied. -/
theorem TargetPort.Orderly.emptyQueues (h : p.Orderly) : ({ p.emptyQueue.clearSync with hold := [] } : TargetPort).Sound :=
  { h.emptyQueue with
    holdRoom := Nat.zero_le _
    onePointer := Nat.zero_le _
    unmarked := rfl
    held := fun hq => absurd rfl hq }

/-! ## Attach, teardown, mode, credit, sends, stall (R103, R104, R108, R113, R115) -/

theorem TargetPort.Orderly.tornDown (h : p.Orderly) : p.tornDown.Sound :=
  { h.emptyQueues with
    credit := Nat.zero_le _
    retry := Nat.zero_le _
    absent := ⟨fun _ => rfl, fun _ => rfl⟩
    queued := fun hq => absurd rfl hq
    held := fun hq => absurd rfl hq
    timer := ⟨nofun, nofun⟩
    inbox := nofun
    resting := fun _ => .inl rfl }

/-- An attach of a port that is UNATTACHED, or torn down before. -/
theorem TargetPort.Sound.attach (h : p.Sound) (m : Mode) (hp : p.attached = false) : (p.attach m).Sound := by
  have hpower : p.power ≠ .waking := by rw [h.absent.2 hp]; decide
  have hidle := h.hold_nil hpower
  have htimer := h.timer_none hpower
  exact { h.toOrderly.emptyQueue with
    credit := Nat.zero_le _
    absent := ⟨nofun, nofun⟩
    queued := fun hq => absurd rfl hq
    held := fun hq => absurd hidle hq
    timer := ⟨fun ht => absurd ht (by show ¬p.wakeTimer.isSome = true; rw [htimer]; decide), nofun⟩
    inbox := fun _ => rfl
    resting := fun _ => .inl rfl
    absolute := fun _ => rfl }

theorem TargetPort.Orderly.changeMode (h : p.Orderly) (m : Mode) : (p.changeMode m).Orderly :=
  { h.emptyQueues with absolute := fun _ => rfl }

theorem TargetPort.Sound.addCredit (h : p.Sound) (n : Nat) : (p.addCredit n).Sound :=
  { h with credit := Nat.min_le_left .., stall := nofun }

/-- A report that leaves the queue, with a credit; the stall timer is left to the end of the event. -/
theorem TargetPort.Sound.popReport (h : p.Sound) {r : Report} {rest : List Report} (hq : p.queue = r :: rest) : (p.popReport rest).Orderly := by
  have hsub : rest.Sublist p.queue := hq ▸ List.sublist_cons_self ..
  exact { h with
    queueRoom := hsub.length_le.trans h.queueRoom
    credit := (Nat.sub_le _ _).trans h.credit
    oneSync := hsub.countP_le.trans h.oneSync
    queued := fun _ => h.queued (hq ▸ List.cons_ne_nil _ _) }

theorem TargetPort.Orderly.stalled (h : p.Orderly) : p.stalled.Sound := { h.emptyQueue with }

theorem TargetPort.Sound.setLeds (h : p.Sound) (l : LedSet) : ({ p with leds := l } : TargetPort).Sound := { h with }

/-! ## The inbox (R162, R164) -/

theorem TargetPort.Sound.fillInbox (h : p.Sound) (f : ControlFrame) (hp : p.attached = true) :
    ({ p with inbox := some f } : TargetPort).Sound := { h with inbox := fun _ => hp }

theorem TargetPort.Sound.clearInbox (h : p.Sound) : ({ p with inbox := none } : TargetPort).Sound := { h with inbox := nofun }

/-! ## Wakes and power states (R147, R148, R150 to R152, R161) -/

/-- A wake begun at a SUSPENDED port (R150). -/
theorem TargetPort.Sound.beginWake (h : p.Sound) (n : Nat) (hp : p.power = .suspended) :
    ({ p with power := .waking, retry := 0, wakeTimer := some n } : TargetPort).Sound :=
  { h with
    retry := Nat.zero_le _
    absent := ⟨nofun, fun ha => absurd (hp.symm.trans (h.absent.2 ha)) (by decide)⟩
    queued := fun hq => absurd (h.queue_nil (by rw [hp]; decide)) hq
    held := fun _ => rfl
    timer := ⟨fun _ => rfl, fun _ => rfl⟩
    resting := fun _ => h.resting (by rw [hp]; decide) }

/-- A wake tried again (R151): retries are few where the policy allows few (R166). -/
theorem TargetPort.Sound.retryWake (h : p.Sound) (n : Nat) (hp : p.power = .waking) (hr : p.retry + 1 ≤ 1) :
    ({ p with retry := p.retry + 1, wakeTimer := some n } : TargetPort).Sound :=
  { h with retry := hr, timer := ⟨fun _ => hp, fun _ => rfl⟩ }

/-- A wake given up at a WAKING port (R152, R161). -/
theorem TargetPort.Sound.failWake (h : p.Sound) (hp : p.power = .waking) : p.failWake.Sound :=
  { h with
    holdRoom := Nat.zero_le _
    onePointer := Nat.zero_le _
    unmarked := rfl
    retry := Nat.zero_le _
    absent := ⟨nofun, fun ha => absurd (hp.symm.trans (h.absent.2 ha)) (by decide)⟩
    queued := fun hq => absurd (h.queue_nil (by rw [hp]; decide)) hq
    held := fun hq => absurd rfl hq
    timer := ⟨nofun, nofun⟩
    resting := fun _ => h.resting (by rw [hp]; decide) }

theorem TargetPort.Sound.cancelWake (h : p.Sound) : p.cancelWake.Sound := by
  unfold TargetPort.cancelWake
  split
  · exact h.failWake ‹_›
  · exact h

/-- A suspension of an ACTIVE port (R147). -/
theorem TargetPort.Sound.suspend (h : p.Sound) (hp : p.power = .active) : p.suspend.Sound :=
  { h.toOrderly.emptyQueues with
    absent := ⟨nofun, fun ha => absurd (hp.symm.trans (h.absent.2 ha)) (by decide)⟩
    queued := fun hq => absurd rfl hq
    held := fun hq => absurd rfl hq
    timer := ⟨fun ht => absurd (h.timer.1 ht) (by rw [hp]; decide), nofun⟩
    resting := fun _ => .inl rfl }

theorem TargetPort.Orderly.askResync (h : p.Orderly) : ({ p with resync := true } : TargetPort).Orderly := { h with }

theorem TargetPort.Orderly.offers {l : List Report} : ∀ {p : TargetPort}, p.Orderly → p.power = .active →
    l.countP Report.isSync = 0 → ∀ c : Nat,
    (l.foldl (fun acc r => acc.offer c r) p).Orderly ∧ (l.foldl (fun acc r => acc.offer c r) p).power = .active := by
  induction l with
  | nil => exact fun h hp _ _ => ⟨h, hp⟩
  | cons r l ih =>
    intro p h hp hl c
    obtain ⟨hr, hrest⟩ := List.forall_mem_cons.1 (List.countP_eq_zero.1 hl)
    exact ih (h.offer c (Bool.eq_false_iff.2 hr) hp) ((p.offer_power c r).trans hp) (List.countP_eq_zero.2 hrest) c

/-- A resumption of a SUSPENDED or WAKING port (R148): the held reports are offered in turn, and a PENDING sync starts. -/
theorem TargetPort.Sound.resume (h : p.Sound) (c : Nat) (z : DeskSize) (hp : p.power = .suspended ∨ p.power = .waking) :
    (p.resume c z).Orderly := by
  have hresting : p.power ≠ .active := by rcases hp with hp | hp <;> rw [hp] <;> decide
  have hpresent : p.attached = true := Bool.eq_true_of_not_eq_false fun ha => by
    have habsent := h.absent.2 ha
    rcases hp with hp | hp <;> cases hp.symm.trans habsent
  have hawake : ({ p with wakeTimer := none, retry := 0, power := .active, hold := [] } : TargetPort).Orderly :=
    { h with
      holdRoom := Nat.zero_le _
      onePointer := Nat.zero_le _
      unmarked := rfl
      retry := Nat.zero_le _
      absent := ⟨nofun, fun ha => absurd (hpresent.symm.trans ha) (by decide)⟩
      queued := fun _ => rfl
      held := fun hq => absurd rfl hq
      timer := ⟨nofun, nofun⟩
      resting := fun ha => absurd rfl ha }
  obtain ⟨hmoved, hactive⟩ := hawake.offers rfl h.unmarked c
  unfold TargetPort.resume
  dsimp only
  split
  · rename_i hpending
    refine hmoved.askResync.startHome z hactive fun hm => ?_
    cases (hmoved.absolute hm).symm.trans hpending
  · exact hmoved.askResync

/-- What part 3 of DESK_RESET leaves of a port before its resync (R122). -/
theorem TargetPort.Orderly.deskReset (h : p.Orderly) : p.deskReset.Sound := { h.emptyQueues with }

end

end Sys2Proof.Machine
end

section
/-! SUPPORT. Focus changes keep suppressed sets and target ports within their limits (R41 to R60, R91 to R99). -/

namespace Sys2Proof.Machine

/-! ## Suppressed keys in ascending order (10.6) -/

/-- The suppressed keys stand in ascending order, each once. -/
abbrev ConsolePort.Rising (c : ConsolePort) : Prop := c.supKeys.Pairwise (· < ·)

theorem addKey_rising (k : Key) {l : List Key} (h : l.Pairwise (· < ·)) : (addKey k l).Pairwise (· < ·) := by
  induction l with
  | nil => exact List.pairwise_singleton ..
  | cons x xs ih =>
    obtain ⟨hx, hxs⟩ := List.pairwise_cons.1 h
    unfold addKey
    split
    · exact h
    · rename_i hne
      split
      · rename_i hlt
        refine List.pairwise_cons.2 ⟨fun y hy => ?_, h⟩
        rcases List.mem_cons.1 hy with rfl | hy
        · exact hlt
        · exact BitVec.lt_trans hlt (hx y hy)
      · rename_i hge
        refine List.pairwise_cons.2 ⟨fun y hy => ?_, ih hxs⟩
        rcases (mem_addKey k y xs).1 hy with rfl | hy
        · exact BitVec.lt_of_le_ne (BitVec.not_lt.1 hge) (Ne.symm hne)
        · exact hx y hy

theorem addKeys_rising (ks : List Key) {l : List Key} (h : l.Pairwise (· < ·)) : (addKeys ks l).Pairwise (· < ·) := by
  induction ks generalizing l with
  | nil => exact h
  | cons k ks ih => exact ih (addKey_rising k h)

theorem ConsolePort.Rising.suppressAll {c : ConsolePort} (h : c.Rising) (keys : List Key) (mods : ModSet) (buttons : ButtonSet) :
    (c.suppressAll keys mods buttons).Rising := addKeys_rising keys h

theorem ConsolePort.Rising.suppress {c : ConsolePort} (h : c.Rising) (i : Item) : (c.suppress i).Rising := by
  cases i <;> exact ConsolePort.Rising.suppressAll h ..

theorem ConsolePort.Rising.unsuppress {c : ConsolePort} (h : c.Rising) (i : Item) : (c.unsuppress i).Rising := by
  cases i with
  | key k => exact h.filter _
  | mod m => exact h
  | button b => exact h

/-! ## What stays within limits from one state to another -/

/-- Suppressed keys in order stay in order, and sound target ports stay sound. -/
structure State.KeepsLimits (s t : State) : Prop where
  rising : ∀ p : Port, s.ports[p].Rising → t.ports[p].Rising
  sound  : (∀ u : Target, s.targets[u].Sound) → ∀ u : Target, t.targets[u].Sound

theorem State.KeepsLimits.trans {s t u : State} (h : s.KeepsLimits t) (k : t.KeepsLimits u) : s.KeepsLimits u :=
  ⟨fun p => k.rising p ∘ h.rising p, k.sound ∘ h.sound⟩

/-- Limits speak of ports only. -/
theorem State.KeepsLimits.of_ports {s t : State} (hports : t.ports = s.ports) (htargets : t.targets = s.targets) : s.KeepsLimits t :=
  ⟨fun p h => by rw [hports]; exact h, fun h => by rw [htargets]; exact h⟩

theorem State.KeepsLimits.refl (s : State) : s.KeepsLimits s := .of_ports rfl rfl

/-- One target port becomes q. -/
theorem State.KeepsLimits.of_target {s x : State} {t : Target} {q : TargetPort} (hports : x.ports = s.ports)
    (htargets : x.targets = upd s.targets t fun _ => q) (h : s.targets[t].Sound → q.Sound) : s.KeepsLimits x := by
  refine ⟨fun p hp => by rw [hports]; exact hp, fun hs u => ?_⟩
  rw [htargets, upd_get_eq]
  split
  · exact h (hs t)
  · exact hs u

theorem State.modTarget_keepsLimits (t : Target) (f : TargetPort → TargetPort) (s : State)
    (h : s.targets[t].Sound → (f s.targets[t]).Sound) : s.KeepsLimits (s.modTarget t f) :=
  .of_target rfl (upd_congr rfl) h

/-- One event of a target port, with whatever is sent or noticed in it: the change may leave the stall timer to the event's end. -/
theorem State.portEnd_keepsLimits {t : Target} {f : TargetPort → TargetPort} {s x : State} (hports : x.ports = s.ports)
    (htargets : x.targets = upd s.targets t f) (h : s.targets[t].Sound → (f s.targets[t]).Orderly) : s.KeepsLimits (x.portEnd t) := by
  refine .of_target (t := t) (q := (f s.targets[t]).finish (x.view t) (x.buttonSet t) (x.desktop t) x.desk.stallTime) hports ?_
    fun hs => (h hs).finish ..
  show upd x.targets t _ = _
  rw [htargets, upd_upd]
  exact upd_congr rfl

theorem State.modPort_keepsLimits (p : Port) (f : ConsolePort → ConsolePort) (s : State) (h : s.ports[p].Rising → (f s.ports[p]).Rising) :
    s.KeepsLimits (s.modPort p f) := by
  refine ⟨fun q hq => ?_, id⟩
  rw [State.modPort_ports, upd_get_eq]
  split
  · rename_i e
    subst e
    exact h hq
  · exact hq

/-- Console ports changed by f, and any change of the key-state tables. -/
theorem State.books_keepsLimits (f : Port → ConsolePort → ConsolePort) (ks : Vector KeyState 8) (s : State)
    (h : ∀ p c, c.Rising → (f p c).Rising) : s.KeepsLimits { s with ports := updAll s.ports f, keyStates := ks } := by
  refine ⟨fun p hp => ?_, id⟩
  show (updAll s.ports f)[p].Rising
  rw [updAll_get]
  exact h p _ hp

theorem State.sendTo_targets (t : Target) (f : OutFrame) (s : State) : (s.sendTo t f).targets = s.targets := by
  unfold State.sendTo
  split <;> rfl

theorem State.sendTo_keepsLimits (t : Target) (f : OutFrame) (s : State) : s.KeepsLimits (s.sendTo t f) :=
  .of_ports (s.sendTo_delivers t f).ports (s.sendTo_targets t f)

theorem ite_keepsLimits {c : Prop} [Decidable c] {s a b : State} (ha : s.KeepsLimits a) (hb : s.KeepsLimits b) :
    s.KeepsLimits (if c then a else b) := by
  split
  · exact ha
  · exact hb

theorem foldl_keepsLimits {α : Type} {f : State → α → State} (h : ∀ (s : State) (a : α), s.KeepsLimits (f s a)) (l : List α) (s : State) :
    s.KeepsLimits (l.foldl f s) := by
  induction l generalizing s with
  | nil => exact .refl s
  | cons a l ih => exact (h s a).trans (ih _)

/-! ## Offers and wake requests (R96, R109, R150, R153) -/

/-- The part offers no report with the sync mark: only the end of an event places those. -/
theorem State.offerReport_keepsLimits (t : Target) {r : Report} (hr : r.isSync = false) (s : State) : s.KeepsLimits (s.offerReport t r) := by
  unfold State.offerReport
  split
  · rename_i hp
    dsimp only
    split <;> exact State.portEnd_keepsLimits rfl rfl fun h => h.offer _ hr hp
  · rename_i hp
    exact s.modTarget_keepsLimits t _ fun h => h.offerHold hr hp
  · exact .refl s
  · exact .refl s

theorem State.announceView_keepsLimits (v : ModSet × List Key) (t : Target) (s : State) : s.KeepsLimits (s.announceView v t) :=
  ite_keepsLimits (.refl s) (s.offerReport_keepsLimits t rfl)

theorem State.buttonReport_keepsLimits (t : Target) (s : State) : s.KeepsLimits (s.buttonReport t) :=
  s.offerReport_keepsLimits t (TargetPort.stillReport_unmarked ..)

theorem State.wakeRequest_keepsLimits (t : Target) (s : State) : s.KeepsLimits (s.wakeRequest t) := by
  unfold State.wakeRequest
  split
  · rename_i hp
    refine (s.sendTo_keepsLimits t _).trans (State.modTarget_keepsLimits _ _ _ fun h => h.beginWake _ ?_)
    rw [State.sendTo_targets]
    exact hp
  all_goals exact .refl s

theorem State.requestSync_keepsLimits (t : Target) (s : State) : s.KeepsLimits (s.requestSync t) :=
  State.portEnd_keepsLimits rfl rfl fun h => h.requestSync _

theorem State.pointerReport_keepsLimits (t : Target) (q : Nat × Nat) (w : Int) (changed entry : Bool) (s : State) :
    s.KeepsLimits (s.pointerReport t q w changed entry) := by
  have hlast : s.KeepsLimits (s.setLast t q) := s.modTarget_keepsLimits t _ fun h => h.setLast ..
  have hsync := hlast.trans (State.requestSync_keepsLimits t _)
  have hstill : s.KeepsLimits ((s.setLast t q).offerReport t ((s.setLast t q).stillReport t w)) :=
    hlast.trans (State.offerReport_keepsLimits t (TargetPort.stillReport_unmarked ..) _)
  exact ite_keepsLimits
    (ite_keepsLimits (ite_keepsLimits (hsync.trans (State.buttonReport_keepsLimits t _)) hsync)
      (ite_keepsLimits (hlast.trans (State.offerReport_keepsLimits t rfl _)) (ite_keepsLimits hstill hlast)))
    hstill

/-! ## The focus switch and what leads to it (R51 to R60) -/

theorem State.leave_keepsLimits (a : Target) (s : State) : s.KeepsLimits (s.leave a) := by
  have hdropped : s.KeepsLimits (s.modKeys a (KeyState.dropPorts s.following)) := .of_ports rfl rfl
  have htold := hdropped.trans (State.announceView_keepsLimits (s.view a) a _)
  unfold State.leave
  dsimp only
  split
  · exact htold
  · exact htold.trans (State.buttonReport_keepsLimits a _)

theorem State.carryOver_keepsLimits (s before : State) (a b : Target) (m : ModSet) : s.KeepsLimits (s.carryOver before a b m) := by
  unfold State.carryOver
  refine .trans (State.books_keepsLimits _ _ s fun p c hc => ?_) (State.announceView_keepsLimits (s.view b) b _)
  split
  · exact hc.suppressAll ..
  · exact hc

theorem State.arrive_keepsLimits (a b : Target) (c : Cause) (r : Region) (s : State) : s.KeepsLimits (s.arrive a b c r) := by
  have hsync := s.modTarget_keepsLimits a _ TargetPort.Sound.abandonSync
  have hraised := hsync.trans (t := s.modTarget a TargetPort.abandonSync) (u := State.raise .focusChanged (eightSubject b)
    (({ s with focus := { s.focus with target := b, cause := c, region := r, history := pushHistory a b s.focus.history }
               glide := { s.glide with pressure := none } } : State).modTarget a TargetPort.abandonSync).ledsToFollowers) (.of_ports rfl rfl)
  exact ite_keepsLimits (hraised.trans (State.wakeRequest_keepsLimits b _)) hraised

theorem State.switchTo_keepsLimits (b : Target) (c : Cause) (m : ModSet) (r : Region) (s : State) : s.KeepsLimits (s.switchTo b c m r) :=
  ite_keepsLimits (.refl s) (((s.leave_keepsLimits _).trans (State.carryOver_keepsLimits ..)).trans (State.arrive_keepsLimits ..))

theorem State.entry_keepsLimits (b : Target) (s : State) : s.KeepsLimits (s.entry b) := by
  unfold State.entry
  split
  · exact s.pointerReport_keepsLimits ..
  · exact .refl s

theorem State.switch_keepsLimits (b : Target) (c : Cause) (m : ModSet) (r : Region) (s : State) : s.KeepsLimits (s.switch b c m r) :=
  ite_keepsLimits (.refl s) ((s.switchTo_keepsLimits ..).trans (State.entry_keepsLimits b _))

theorem State.directed_keepsLimits (t : Target) (c : Cause) (m : ModSet) (s : State) : s.KeepsLimits (s.directed t c m) := by
  have hswitch : ∀ (x : State) (r : Region), x.ports = s.ports → x.targets = s.targets →
      s.KeepsLimits (x.switch t c m r).recordRegion := fun x r hp ht =>
    (State.KeepsLimits.of_ports hp ht).trans ((x.switch_keepsLimits ..).trans (.of_ports rfl rfl))
  unfold State.directed
  split
  · exact hswitch _ _ rfl rfl
  · exact ite_keepsLimits (.refl s) (hswitch _ _ rfl rfl)

theorem State.reevaluate_keepsLimits (c : Cause) (m : ModSet) (s : State) : s.KeepsLimits (s.reevaluate c m) := by
  have hrecord : s.KeepsLimits s.recordRegion := .of_ports rfl rfl
  unfold State.reevaluate
  dsimp only
  split
  · exact hrecord
  · exact ite_keepsLimits hrecord (ite_keepsLimits hrecord (hrecord.trans (State.switch_keepsLimits ..)))

/-! ## Presses and releases (R44 to R47) -/

theorem State.wokenByPress_keepsLimits (t : Target) (s : State) : s.KeepsLimits (s.wokenByPress t) :=
  ite_keepsLimits (s.wakeRequest_keepsLimits t) (.refl s)

theorem State.bookPress_keepsLimits (p : Port) (t : Target) (i : Item) (s : State) : s.KeepsLimits (s.bookPress p t i) := by
  have hwoken := s.wokenByPress_keepsLimits t
  unfold State.bookPress
  rw [State.acceptPress_eq]
  have hrefused := hwoken.trans (State.modPort_keepsLimits p _ _ fun h => h.suppress i)
  refine ite_keepsLimits ?_ hrefused
  split
  · exact hwoken.trans (.of_ports rfl rfl)
  · exact hrefused

theorem State.keyPress_keepsLimits (p : Port) (t : Target) (i : KeyItem) (s : State) : s.KeepsLimits (s.keyPress p t i) :=
  (s.bookPress_keepsLimits p t i.item).trans (State.announceView_keepsLimits ..)

theorem State.keyRelease_keepsLimits (p : Port) (i : KeyItem) (s : State) : s.KeepsLimits (s.keyRelease p i) := by
  refine ite_keepsLimits (s.modPort_keepsLimits p _ fun h => h.unsuppress i.item) ?_
  split
  · rename_i t _
    have hbooked : s.KeepsLimits (s.modKeys t (KeyState.release p i.item)) := .of_ports rfl rfl
    exact hbooked.trans (State.announceView_keepsLimits ..)
  · exact .refl s

theorem State.buttonRelease_keepsLimits (p : Port) (b : Button) (s : State) : s.KeepsLimits (s.buttonRelease p b) := by
  refine ite_keepsLimits (s.modPort_keepsLimits p _ fun h => h.unsuppress (.button b)) ?_
  split
  · exact .of_ports rfl rfl
  · exact .refl s

theorem State.buttonPress_keepsLimits (p : Port) (dest : Option Target) (b : Button) (s : State) : s.KeepsLimits (s.buttonPress p dest b) := by
  cases dest with
  | some t => exact s.bookPress_keepsLimits ..
  | none => exact s.modPort_keepsLimits p _ fun h => h.suppress (.button b)

/-! ## Pointer events (R81 to R100) -/

theorem State.setHeld_keepsLimits (p : Port) (b : ButtonSet) (s : State) : s.KeepsLimits (s.setHeld p b) := s.modPort_keepsLimits p _ id

theorem State.accountButtons_keepsLimits (e : PointerEvent) (dest : Option Target) (s : State) : s.KeepsLimits (s.accountButtons e dest) :=
  ((s.setHeld_keepsLimits e.port e.buttons).trans (foldl_keepsLimits (fun x b => x.buttonRelease_keepsLimits e.port b) _ _)).trans
    (foldl_keepsLimits (fun x b => x.buttonPress_keepsLimits e.port dest b) _ _)

theorem State.buttonsAndReport_keepsLimits (e : PointerEvent) (dest : Option Target) (receiver : Target) (q : Option (Nat × Nat)) (entry : Bool)
    (s : State) : s.KeepsLimits (s.buttonsAndReport e dest receiver q entry) := by
  have hreported := (s.accountButtons_keepsLimits e dest).trans
    (foldl_keepsLimits (fun x t => x.buttonReport_keepsLimits t)
      ((List.finRange 8).filter fun t => t != receiver && (s.accountButtons e dest).buttonSet t != s.buttonSet t) _)
  unfold State.buttonsAndReport
  cases q with
  | some q => exact hreported.trans (State.pointerReport_keepsLimits ..)
  | none => exact hreported

theorem State.settle_keepsLimits (sx sy : Int) (s : State) : s.KeepsLimits (s.settle sx sy).1 := by
  have haway : (s.awayTest sx sy).ports = s.ports ∧ (s.awayTest sx sy).targets = s.targets := by
    unfold State.awayTest
    split
    · split <;> exact ⟨rfl, rfl⟩
    · exact ⟨rfl, rfl⟩
  unfold State.settle
  dsimp only
  split
  · unfold State.settleFrom
    dsimp only
    repeat' split
    all_goals exact .of_ports haway.1 haway.2
  · exact .of_ports haway.1 haway.2

theorem State.followRegion_keepsLimits (crossed : Bool) (s : State) : s.KeepsLimits (s.followRegion crossed) := by
  have hrecord : s.KeepsLimits s.recordRegion := .of_ports rfl rfl
  have hswitch : ∀ b c m r, s.KeepsLimits (s.recordRegion.switchTo b c m r) := fun _ _ _ _ => hrecord.trans (State.switchTo_keepsLimits ..)
  unfold State.followRegion
  dsimp only
  split
  · exact hrecord
  · exact ite_keepsLimits hrecord (ite_keepsLimits (hswitch ..) (ite_keepsLimits hrecord (hswitch ..)))

theorem State.arrived_keepsLimits (e : PointerEvent) (s : State) : s.KeepsLimits (s.arrived e) :=
  (s.settle_keepsLimits ..).trans (State.followRegion_keepsLimits ..)

theorem State.completeRelease_keepsLimits (e : PointerEvent) (s : State) : s.KeepsLimits (s.completeRelease e) :=
  ite_keepsLimits (s.reevaluate_keepsLimits ..) (.refl s)

theorem State.pointerEvent_keepsLimits (e : PointerEvent) (s : State) : s.KeepsLimits (s.pointerEvent e) := by
  have hreported : ∀ {x : State} (dest receiver q entry), s.KeepsLimits x → s.KeepsLimits (x.buttonsAndReport e dest receiver q entry) :=
    fun _ _ _ _ hx => hx.trans (State.buttonsAndReport_keepsLimits ..)
  have hglide : ∀ g, s.KeepsLimits { s with glide := g } := fun _ => .of_ports rfl rfl
  unfold State.pointerEvent
  split
  · unfold State.pinnedMotion
    exact hreported _ _ _ _ (hglide _)
  · unfold State.detachedMotion State.followingMotion
    exact ite_keepsLimits ((hreported _ _ _ _ (hglide _)).trans (State.completeRelease_keepsLimits ..))
      ((hreported _ _ _ _ (s.arrived_keepsLimits e)).trans (State.completeRelease_keepsLimits ..))

end Sys2Proof.Machine
end

section
/-! SUPPORT. What an entry of the merge engine may touch: hotkeys, detector, focus and pointer (R30 to R35, R64 to R100). -/

namespace Sys2Proof.Machine

/-! ## Presses, releases and pointer events touch no more than a focus change may -/

theorem State.modPort_focusOnly (p : Port) {f : ConsolePort → ConsolePort} (s : State)
    (h : ∀ c, f c = { c with supKeys := (f c).supKeys, supMods := (f c).supMods, supButtons := (f c).supButtons }) :
    s.FocusChangeOnly (s.modPort p f) := by
  refine ⟨rfl, fun q => ?_, fun _ => TargetPort.KeepsSettings.refl _⟩
  rw [State.modPort_ports, upd_get_eq]
  split
  · exact h _
  · rfl

theorem ConsolePort.suppress_sets (i : Item) (c : ConsolePort) : c.suppress i =
    { c with supKeys := (c.suppress i).supKeys, supMods := (c.suppress i).supMods, supButtons := (c.suppress i).supButtons } := by
  cases i <;> rfl

theorem ConsolePort.unsuppress_sets (i : Item) (c : ConsolePort) : c.unsuppress i =
    { c with supKeys := (c.unsuppress i).supKeys, supMods := (c.unsuppress i).supMods, supButtons := (c.unsuppress i).supButtons } := by
  cases i <;> rfl

theorem State.suppress_focusOnly (p : Port) (i : Item) (s : State) : s.FocusChangeOnly (s.modPort p (ConsolePort.suppress i)) :=
  s.modPort_focusOnly p (ConsolePort.suppress_sets i)

theorem State.unsuppress_focusOnly (p : Port) (i : Item) (s : State) : s.FocusChangeOnly (s.modPort p (ConsolePort.unsuppress i)) :=
  s.modPort_focusOnly p (ConsolePort.unsuppress_sets i)

theorem ite_focusOnly {c : Prop} [Decidable c] {s a b : State} (ha : s.FocusChangeOnly a) (hb : s.FocusChangeOnly b) :
    s.FocusChangeOnly (if c then a else b) := by
  split
  · exact ha
  · exact hb

theorem foldl_focusOnly {α : Type} {f : State → α → State} (h : ∀ (s : State) (a : α), s.FocusChangeOnly (f s a)) (l : List α)
    (s : State) :
    s.FocusChangeOnly (l.foldl f s) := by
  induction l generalizing s with
  | nil => exact .refl s
  | cons a l ih => exact (h s a).trans (ih _)

theorem State.bookPress_focusOnly (p : Port) (t : Target) (i : Item) (s : State) : s.FocusChangeOnly (s.bookPress p t i) := by
  have hwoken : s.FocusChangeOnly (s.wokenByPress t) := ite_focusOnly (s.wakeRequest_focusOnly t) (.refl s)
  have hrefused := hwoken.trans (State.suppress_focusOnly p i _)
  unfold State.bookPress
  rw [State.acceptPress_eq]
  refine ite_focusOnly ?_ hrefused
  split
  · exact hwoken.trans (State.modKeys_focusOnly ..)
  · exact hrefused

theorem State.keyPress_focusOnly (p : Port) (t : Target) (i : KeyItem) (s : State) : s.FocusChangeOnly (s.keyPress p t i) :=
  (s.bookPress_focusOnly p t i.item).trans (State.announceView_focusOnly ..)

theorem State.keyRelease_focusOnly (p : Port) (i : KeyItem) (s : State) : s.FocusChangeOnly (s.keyRelease p i) := by
  refine ite_focusOnly (s.unsuppress_focusOnly p i.item) ?_
  split
  · exact (State.modKeys_focusOnly ..).trans (State.announceView_focusOnly ..)
  · exact .refl s

theorem State.buttonRelease_focusOnly (p : Port) (b : Button) (s : State) : s.FocusChangeOnly (s.buttonRelease p b) := by
  refine ite_focusOnly (s.unsuppress_focusOnly p (.button b)) ?_
  split
  · exact State.modKeys_focusOnly ..
  · exact .refl s

theorem State.buttonPress_focusOnly (p : Port) (dest : Option Target) (b : Button) (s : State) :
    s.FocusChangeOnly (s.buttonPress p dest b) := by
  cases dest with
  | some t => exact s.bookPress_focusOnly ..
  | none => exact s.suppress_focusOnly p (.button b)

/-- Beyond the held set, which becomes the event's, the accounting of the buttons touches no more than a focus change may. -/
theorem State.accountButtons_focusOnly (e : PointerEvent) (dest : Option Target) (s : State) :
    (s.setHeld e.port e.buttons).FocusChangeOnly (s.accountButtons e dest) :=
  (foldl_focusOnly (fun x b => x.buttonRelease_focusOnly e.port b) _ _).trans
    (foldl_focusOnly (fun x b => x.buttonPress_focusOnly e.port dest b) _ _)

/-- The same held set given before and after. -/
theorem State.FocusChangeOnly.setHeld {s t : State} (h : s.FocusChangeOnly t) (p : Port) (b : ButtonSet) :
    (s.setHeld p b).FocusChangeOnly (t.setHeld p b) := by
  obtain ⟨hframe, hports, htargets⟩ := h
  refine ⟨?_, fun q => ?_, htargets⟩
  · have := congrArg (State.setHeld p b) hframe
    exact this
  · rw [State.setHeld_port, State.setHeld_port, hports q]
    split <;> rfl

theorem State.pointerEvent_focusOnly (e : PointerEvent) (s : State) :
    (s.setHeld e.port e.buttons).FocusChangeOnly (s.pointerEvent e) := by
  have hreported : ∀ {x : State} (dest receiver q entry), s.FocusChangeOnly x →
      (s.setHeld e.port e.buttons).FocusChangeOnly (x.buttonsAndReport e dest receiver q entry) :=
    fun _ _ _ _ hx => ((hx.setHeld e.port e.buttons).trans (State.accountButtons_focusOnly ..)).trans (State.buttonsAndReport_focusOnly ..)
  have hglide : ∀ g, s.FocusChangeOnly { s with glide := g } := fun _ => ⟨rfl, fun _ => rfl, fun _ => TargetPort.KeepsSettings.refl _⟩
  have hcompleted : ∀ {x : State}, (s.setHeld e.port e.buttons).FocusChangeOnly x →
      (s.setHeld e.port e.buttons).FocusChangeOnly (x.completeRelease e) :=
    fun hx => ite_focusOnly (hx.trans (State.reevaluate_focusOnly ..)) hx
  unfold State.pointerEvent
  split
  · unfold State.pinnedMotion
    exact hreported _ _ _ _ (hglide _)
  · unfold State.detachedMotion State.followingMotion
    exact ite_focusOnly (hcompleted (hreported _ _ _ _ (hglide _))) (hcompleted (hreported _ _ _ _ (s.arrived_focusOnly e)))

/-! ## What an entry may touch -/

/-- From s to t nothing changes but what the events of an entry may touch: detector, account, focus, pointer, shown set, the glide enable of
DESK, queues, timers, sync records and wakes of target ports, notices and frames sent; the ports stay within their limits. -/
structure State.InputOnly (s t : State) : Prop extends s.KeepsLimits t where
  frame    : t = { s with
    ports := t.ports, detector := t.detector, keyStates := t.keyStates, focus := t.focus, glide := t.glide, targets := t.targets,
    windows := t.windows, notices := t.notices, sent := t.sent, desk := { s.desk with glideEnable := t.desk.glideEnable } }
  console  : s.SamePortsButSuppressed t
  settings : s.SameTargetSettings t
  windows  : ∀ w : Window, t.windows[w] = { s.windows[w] with shown := t.windows[w].shown }

theorem State.FocusChangeOnly.inputOnly {s t : State} (h : s.FocusChangeOnly t) (k : s.KeepsLimits t) : s.InputOnly t := by
  obtain ⟨hframe, hports, htargets⟩ := h
  have hwindows : t.windows = s.windows := (congrArg State.windows hframe :)
  refine ⟨k, ?_, hports, htargets, fun w => by rw [hwindows]⟩
  rw [hframe]

theorem State.InputOnly.trans {s t u : State} (h : s.InputOnly t) (k : t.InputOnly u) : s.InputOnly u := by
  refine ⟨h.toKeepsLimits.trans k.toKeepsLimits, ?_, fun p => ?_, fun v => TargetPort.KeepsSettings.trans (h.settings v) (k.settings v),
    fun w => ?_⟩
  · rw [k.frame, h.frame]
  · rw [k.console p, h.console p]
  · rw [k.windows w, h.windows w]

theorem State.InputOnly.refl (s : State) : s.InputOnly s := (State.FocusChangeOnly.refl s).inputOnly (.refl s)

theorem ite_inputOnly {c : Prop} [Decidable c] {s a b : State} (ha : s.InputOnly a) (hb : s.InputOnly b) :
    s.InputOnly (if c then a else b) := by
  split
  · exact ha
  · exact hb

theorem foldl_inputOnly {α : Type} {f : State → α → State} (h : ∀ (s : State) (a : α), s.InputOnly (f s a)) (l : List α) (s : State) :
    s.InputOnly (l.foldl f s) := by
  induction l generalizing s with
  | nil => exact .refl s
  | cons a l ih => exact (h s a).trans (ih _)

/-- Detector, focus record and glide enable may change freely. -/
theorem State.InputOnly.of_settings (d : Detector) (r : Focus) (b : Bool) (s : State) :
    s.InputOnly { s with detector := d, focus := r, desk := { s.desk with glideEnable := b } } :=
  ⟨.of_ports rfl rfl, rfl, fun _ => rfl, fun _ => TargetPort.KeepsSettings.refl _, fun _ => rfl⟩

theorem State.setDetector_inputOnly (d : Detector) (s : State) : s.InputOnly (s.setDetector d) :=
  .of_settings d s.focus s.desk.glideEnable s

/-- So may the shown set. -/
theorem State.InputOnly.of_windows {s t : State} (hframe : t = { s with windows := t.windows })
    (h : ∀ w : Window, t.windows[w] = { s.windows[w] with shown := t.windows[w].shown }) : s.InputOnly t := by
  have hports : t.ports = s.ports := (congrArg State.ports hframe :)
  have htargets : t.targets = s.targets := (congrArg State.targets hframe :)
  refine ⟨.of_ports hports htargets, ?_, fun p => by rw [hports], fun v => by rw [htargets]; exact TargetPort.KeepsSettings.refl _, h⟩
  rw [hframe]

/-! ## Hotkey actions (R72 to R77) -/

theorem State.wakeRequest_inputOnly (t : Target) (s : State) : s.InputOnly (s.wakeRequest t) :=
  (s.wakeRequest_focusOnly t).inputOnly (s.wakeRequest_keepsLimits t)

theorem State.directed_inputOnly (t : Target) (c : Cause) (m : ModSet) (s : State) : s.InputOnly (s.directed t c m) :=
  (s.directed_focusOnly t c m).inputOnly (s.directed_keepsLimits t c m)

theorem State.reevaluate_inputOnly (c : Cause) (m : ModSet) (s : State) : s.InputOnly (s.reevaluate c m) :=
  (s.reevaluate_focusOnly c m).inputOnly (s.reevaluate_keepsLimits c m)

theorem State.setShown_inputOnly (set : WindowSet) (s : State) : s.InputOnly (s.setShown set) :=
  .of_windows rfl fun w => by simp only [State.setShown, updAll_get]

theorem State.showWindow_inputOnly (w : Window) (f : WindowState → Bool) (s : State) :
    s.InputOnly (s.modWindow w fun r => { r with shown := f r }) :=
  .of_windows rfl fun v => by
    rw [State.modWindow_windows, upd_get_eq]
    split <;> rfl

theorem State.focusAction_inputOnly (e : HotkeyEntry) (m : ModSet) (t : Target) (s : State) : s.InputOnly (s.focusAction e m t) :=
  ite_inputOnly (.refl s) (s.directed_inputOnly ..)

theorem State.applyPreset_inputOnly (e : HotkeyEntry) (m : ModSet) (s : State) : s.InputOnly (s.applyPreset e m) := by
  have hshown := s.setShown_inputOnly s.presets[e.arg8].windows
  have hreevaluated := hshown.trans (State.reevaluate_inputOnly .window m _)
  unfold State.applyPreset
  dsimp only
  split
  · exact ite_inputOnly hshown hreevaluated
  · exact ite_inputOnly hreevaluated (hshown.trans (State.directed_inputOnly ..))

theorem State.fire_inputOnly (e : HotkeyEntry) (m : ModSet) (s : State) : s.InputOnly (s.fire e m) := by
  unfold State.fire
  split
  case h_1 => exact s.focusAction_inputOnly ..
  case h_2 =>
    split
    · exact s.focusAction_inputOnly ..
    · exact .refl s
  case h_3 =>
    split
    · exact s.focusAction_inputOnly ..
    · exact .refl s
  case h_4 => exact .of_settings s.detector _ s.desk.glideEnable s
  case h_5 => exact .of_settings s.detector s.focus _ s
  case h_6 => exact ite_inputOnly ((s.showWindow_inputOnly _ fun r => !r.shown).trans (State.reevaluate_inputOnly ..)) (.refl s)
  case h_7 => exact s.applyPreset_inputOnly e m
  case h_8 => exact s.wakeRequest_inputOnly _
  case h_9 => exact s.setDetector_inputOnly _

/-! ## The detector (R64 to R71) -/

theorem State.keyPress_inputOnly (p : Port) (t : Target) (i : KeyItem) (s : State) : s.InputOnly (s.keyPress p t i) :=
  (s.keyPress_focusOnly p t i).inputOnly (s.keyPress_keepsLimits p t i)

theorem State.keyRelease_inputOnly (p : Port) (i : KeyItem) (s : State) : s.InputOnly (s.keyRelease p i) :=
  (s.keyRelease_focusOnly p i).inputOnly (s.keyRelease_keepsLimits p i)

theorem State.consumePress_inputOnly (p : Port) (i : KeyItem) (s : State) : s.InputOnly (s.consumePress p i) :=
  (s.suppress_focusOnly p i.item).inputOnly (s.modPort_keepsLimits p _ fun h => h.suppress i.item)

theorem State.settlePress_inputOnly (e : HotkeyEntry) (p : Port) (i : KeyItem) (s : State) : s.InputOnly (s.settlePress e p i) :=
  ite_inputOnly (s.keyPress_inputOnly ..) (s.consumePress_inputOnly ..)

theorem State.pressIdle_inputOnly (p : Port) (i : KeyItem) (held : ModSet) (s : State) : s.InputOnly (s.pressIdle p i held).1 := by
  unfold State.pressIdle
  split
  · exact (s.setDetector_inputOnly _).trans ((State.fire_inputOnly ..).trans (State.settlePress_inputOnly ..))
  · exact (s.setDetector_inputOnly _).trans (State.keyPress_inputOnly ..)

theorem State.detectPress_inputOnly (p : Port) (i : KeyItem) (held : ModSet) (s : State) : s.InputOnly (s.detectPress p i held).1 := by
  have hidle := s.setDetector_inputOnly Detector.initial
  unfold State.detectPress
  split
  · exact s.pressIdle_inputOnly ..
  · unfold State.pressTapWait
    dsimp only
    split
    · exact hidle.trans ((State.fire_inputOnly ..).trans (State.keyPress_inputOnly ..))
    · exact hidle.trans (State.pressIdle_inputOnly ..)
  · unfold State.pressLeader
    dsimp only
    split
    · exact hidle.trans ((State.fire_inputOnly ..).trans (State.settlePress_inputOnly ..))
    · exact hidle.trans (State.pressIdle_inputOnly ..)

theorem State.detectRelease_inputOnly (p : Port) (i : KeyItem) (s : State) : s.InputOnly (s.detectRelease p i) := by
  unfold State.detectRelease
  exact (ite_inputOnly (s.setDetector_inputOnly _) (.refl s)).trans (State.keyRelease_inputOnly ..)

/-! ## The events of an entry (R32 to R35) -/

theorem State.handRelease_inputOnly (p : Port) (s : State) (i : KeyItem) : s.InputOnly (s.handRelease p i) :=
  ite_inputOnly (s.detectRelease_inputOnly p i) (s.keyRelease_inputOnly p i)

theorem State.handOnPress_inputOnly (p : Port) (mods : ModSet) (a : State × Bool) (i : KeyItem) :
    a.1.InputOnly (State.handOnPress p mods a i).1 := by
  unfold State.handOnPress
  split
  · exact State.keyPress_inputOnly ..
  · split
    · exact State.consumePress_inputOnly ..
    · exact State.detectPress_inputOnly ..

theorem State.foldl_handOnPress_inputOnly (p : Port) (mods : ModSet) (l : List KeyItem) (a : State × Bool) :
    a.1.InputOnly (l.foldl (State.handOnPress p mods) a).1 := by
  induction l generalizing a with
  | nil => exact .refl _
  | cons i l ih => exact (State.handOnPress_inputOnly p mods a i).trans (ih _)

theorem State.keysReleased_inputOnly (p : Port) (mods : ModSet) (clean : List Key) (s : State) : s.InputOnly (s.keysReleased p mods clean) :=
  foldl_inputOnly (State.handRelease_inputOnly p) _ s

theorem State.suppressAll_inputOnly (p : Port) (keys : List Key) (mods : ModSet) (buttons : ButtonSet) (s : State) :
    s.InputOnly (s.modPort p (ConsolePort.suppressAll keys mods buttons)) :=
  (s.modPort_focusOnly p fun _ => rfl).inputOnly (s.modPort_keepsLimits p _ fun h => h.suppressAll ..)

theorem State.keysPressed_inputOnly (p : Port) (mods : ModSet) (clean : List Key) (swallowed : Bool) (s x : State) :
    x.InputOnly (s.keysPressed p mods clean swallowed x) :=
  ite_inputOnly (x.suppressAll_inputOnly ..) (State.foldl_handOnPress_inputOnly p mods _ (x, false))

theorem State.snapshotReleased_inputOnly (p : Port) (s : State) : s.InputOnly (s.snapshotReleased p) :=
  foldl_inputOnly (State.handRelease_inputOnly p) _ s

/-- A held set set aside and given again: limits do not speak of it. -/
theorem State.KeepsLimits.of_setHeld {s t : State} (h : s.KeepsLimits t) (p : Port) (b : ButtonSet) : (s.setHeld p b).KeepsLimits t := by
  refine ⟨fun q hq => h.rising q ?_, h.sound⟩
  rw [State.setHeld_port] at hq
  split at hq <;> exact hq

theorem State.pointerEvent_inputOnly (e : PointerEvent) (s : State) : (s.setHeld e.port e.buttons).InputOnly (s.pointerEvent e) :=
  (s.pointerEvent_focusOnly e).inputOnly ((s.pointerEvent_keepsLimits e).of_setHeld ..)

theorem State.InputOnly.setHeld {s t : State} (h : s.InputOnly t) (p : Port) (b : ButtonSet) : (s.setHeld p b).InputOnly (t.setHeld p b) := by
  refine ⟨(h.toKeepsLimits.trans (t.setHeld_keepsLimits p b)).of_setHeld p b, ?_, fun q => ?_, h.settings, h.windows⟩
  · exact (congrArg (State.setHeld p b) h.frame :)
  · rw [State.setHeld_port, State.setHeld_port, h.console q]
    split <;> rfl

/-- The held set of p being the event's already, giving it once more changes nothing. -/
theorem State.InputOnly.setHeld_again {s t : State} {p : Port} {b : ButtonSet} (h : (s.setHeld p b).InputOnly t) :
    (s.setHeld p b).InputOnly (t.setHeld p b) := by
  have htwice : (s.setHeld p b).setHeld p b = s.setHeld p b := by
    simp only [State.setHeld, State.modPort, upd_upd]
    rfl
  exact htwice ▸ h.setHeld p b

theorem State.handButtonReleases_inputOnly (p : Port) (b releases : ButtonSet) (s : State) :
    (s.setHeld p b).InputOnly ((s.handButtonReleases p b releases).setHeld p b) := by
  unfold State.handButtonReleases
  split
  · exact .refl _
  · exact (s.pointerEvent_inputOnly ⟨p, 0, 0, 0, b, releases, 0⟩).setHeld_again

theorem State.takeMotion_inputOnly (p : Port) (dx dy wheel : Int) (b : ButtonSet) (swallowed : Bool) (s : State) :
    (s.setHeld p b).InputOnly (s.takeMotion p dx dy wheel b swallowed) := by
  cases swallowed with
  | false => exact (s.pointerEvent_inputOnly ⟨p, dx, dy, wheel, b, _, _⟩).setHeld_again
  | true => exact ((s.suppressAll_inputOnly p [] 0 _).setHeld p b).trans (State.handButtonReleases_inputOnly ..)

end Sys2Proof.Machine
end

section
/-! SUPPORT. Ports and engine across lanes, timers and the entries of the merge engine (R25 to R35, R103 to R165). -/

namespace Sys2Proof.Machine

/-! ## The invariant of ports and engine -/

/-- Every port of both sorts is within its limits, with the power states in agreement (R27, R109, R145). -/
def State.WithinLimits (s : State) : Prop := (∀ p : Port, s.ports[p].Bounded) ∧ ∀ u : Target, s.targets[u].Sound

theorem State.withinLimits_iff (s : State) : s.WithinLimits ↔ s.Bounded ∧ s.PowerSound := by
  simp only [State.WithinLimits, TargetPort.sound_iff, forall_and, and_assoc]

/-- What a command executed in parts reads: the engine's state, the permits, and where frames wait. -/
structure State.SameEngine (s t : State) : Prop where
  executing : t.executing = s.executing
  asserted  : t.resetAsserted = s.resetAsserted
  policies  : t.policies = s.policies
  senders   : ∀ u : Target, t.targets[u].attached = s.targets[u].attached ∧ t.targets[u].inbox = s.targets[u].inbox

theorem State.SameEngine.refl (s : State) : s.SameEngine s := ⟨rfl, rfl, rfl, fun _ => ⟨rfl, rfl⟩⟩

theorem State.SameEngine.executionSound {s t : State} (h : s.SameEngine t) (hs : s.ExecutionSound) : t.ExecutionSound := by
  intro e he
  rw [h.executing] at he
  obtain ⟨hreset, hframe⟩ := hs e he
  refine ⟨h.asserted.trans hreset, fun f hf => ?_⟩
  obtain ⟨hattached, hinbox, hcommand, hpermit, hfollows⟩ := hframe f hf
  exact ⟨(h.senders _).1.trans hattached, (h.senders _).2.trans hinbox, hcommand, by rw [h.policies]; exact hpermit, hfollows⟩

/-- A free engine executes nothing in parts. -/
theorem State.executionSound_of_free {s : State} (h : s.executing = none) : s.ExecutionSound := fun e he => by
  rw [h] at he
  cases he

/-- From s to t ports stay within their limits, and a command executed in parts stays with its frame. -/
structure State.KeepsPorts (s t : State) : Prop where
  limits : s.WithinLimits → t.WithinLimits
  engine : s.WithinLimits → s.ExecutionSound → t.ExecutionSound

theorem State.KeepsPorts.trans {s t u : State} (h : s.KeepsPorts t) (k : t.KeepsPorts u) : s.KeepsPorts u :=
  ⟨k.limits ∘ h.limits, fun hl he => k.engine (h.limits hl) (h.engine hl he)⟩

theorem State.KeepsPorts.refl (s : State) : s.KeepsPorts s := ⟨id, fun _ => id⟩

theorem ite_keepsPorts {c : Prop} [Decidable c] {s a b : State} (ha : s.KeepsPorts a) (hb : s.KeepsPorts b) :
    s.KeepsPorts (if c then a else b) := by
  split
  · exact ha
  · exact hb

/-- Nothing that the invariant speaks of changes. -/
theorem State.KeepsPorts.of_same {s t : State} (hports : t.ports = s.ports) (htargets : t.targets = s.targets)
    (hexecuting : t.executing = s.executing) (hasserted : t.resetAsserted = s.resetAsserted) (hpolicies : t.policies = s.policies) :
    s.KeepsPorts t :=
  ⟨fun h => ⟨fun p => by rw [hports]; exact h.1 p, fun u => by rw [htargets]; exact h.2 u⟩, fun _ h =>
    State.SameEngine.executionSound ⟨hexecuting, hasserted, hpolicies, fun u => by rw [htargets]; exact ⟨rfl, rfl⟩⟩ h⟩

/-- One console port changed by f. -/
theorem State.modPort_keepsPorts (p : Port) (f : ConsolePort → ConsolePort) (s : State) (h : s.ports[p].Bounded → (f s.ports[p]).Bounded) :
    s.KeepsPorts (s.modPort p f) := by
  refine ⟨fun hs => ⟨fun q => ?_, hs.2⟩, fun _ => State.SameEngine.executionSound ⟨rfl, rfl, rfl, fun _ => ⟨rfl, rfl⟩⟩⟩
  rw [State.modPort_ports, upd_get_eq]
  split
  · rename_i e
    subst e
    exact h (hs.1 q)
  · exact hs.1 q

theorem ConsolePort.Bounded.of_suppressed {c d : ConsolePort} (hc : c.Bounded)
    (h : d = { c with supKeys := d.supKeys, supMods := d.supMods, supButtons := d.supButtons }) (hd : d.Rising) : d.Bounded := by
  obtain ⟨hfifo, hsnap, -, hlists⟩ := hc
  rw [h]
  exact ⟨hfifo, hsnap, hd, hlists⟩

theorem ConsolePort.Bounded.rising {c : ConsolePort} (hc : c.Bounded) : c.Rising := hc.2.2.1

/-- Limits kept, and console ports changed in their suppressed sets only. -/
theorem State.KeepsLimits.within {s t : State} (h : s.KeepsLimits t) (hports : s.SamePortsButSuppressed t) (hs : s.WithinLimits) : t.WithinLimits :=
  ⟨fun p => (hs.1 p).of_suppressed (hports p) (h.rising p (hs.1 p).rising), h.sound hs.2⟩

theorem State.InputOnly.engine {s t : State} (h : s.InputOnly t) : s.SameEngine t :=
  ⟨(congrArg State.executing h.frame :), (congrArg State.resetAsserted h.frame :), (congrArg State.policies h.frame :), fun u =>
    ⟨(h.settings u).1, (h.settings u).2.2.2.2.1⟩⟩

theorem State.InputOnly.keepsPorts {s t : State} (h : s.InputOnly t) : s.KeepsPorts t :=
  ⟨h.toKeepsLimits.within h.console, fun _ => h.engine.executionSound⟩

/-- One target port becomes q, which keeps attach state and inbox. -/
theorem State.KeepsPorts.of_target {s x : State} {t : Target} {q : TargetPort} (hports : x.ports = s.ports)
    (htargets : x.targets = upd s.targets t fun _ => q) (hexecuting : x.executing = s.executing)
    (hasserted : x.resetAsserted = s.resetAsserted) (hpolicies : x.policies = s.policies)
    (hattached : q.attached = s.targets[t].attached) (hinbox : q.inbox = s.targets[t].inbox) (h : s.targets[t].Sound → q.Sound) :
    s.KeepsPorts x := by
  refine ⟨fun hs => ⟨fun p => by rw [hports]; exact hs.1 p, (State.KeepsLimits.of_target hports htargets h).sound hs.2⟩,
    fun _ => State.SameEngine.executionSound ⟨hexecuting, hasserted, hpolicies, fun u => ?_⟩⟩
  rw [htargets, upd_get_eq]
  split
  · rename_i e
    subst e
    exact ⟨hattached, hinbox⟩
  · exact ⟨rfl, rfl⟩

theorem State.modTarget_keepsPorts (t : Target) (f : TargetPort → TargetPort) (s : State) (hattached : ∀ p, (f p).attached = p.attached)
    (hinbox : ∀ p, (f p).inbox = p.inbox) (h : s.targets[t].Sound → (f s.targets[t]).Sound) : s.KeepsPorts (s.modTarget t f) :=
  .of_target rfl (upd_congr rfl) rfl rfl rfl (hattached _) (hinbox _) h

/-- A whole event of a target port: the change, and the end of the event. -/
theorem State.portEnd_keepsPorts (t : Target) (f : TargetPort → TargetPort) (s : State) (hattached : ∀ p, (f p).attached = p.attached)
    (hinbox : ∀ p, (f p).inbox = p.inbox) (h : s.targets[t].Sound → (f s.targets[t]).Orderly) :
    s.KeepsPorts ((s.modTarget t f).portEnd t) := by
  obtain ⟨ha, -, -, -, hi, -⟩ := (f s.targets[t]).finish_keeps (s.keyStates[t].view (f s.targets[t]).mode) (s.buttonSet t) (s.desktop t)
    s.desk.stallTime
  rw [State.portEnd_modTarget]
  exact .of_target rfl rfl rfl rfl rfl (ha.trans (hattached _)) (hi.trans (hinbox _)) fun hs => (h hs).finish ..

theorem State.raise_keepsPorts (k : NoticeKind) (i : Fin 16) (s : State) : s.KeepsPorts (s.raise k i) := .of_same rfl rfl rfl rfl rfl

theorem State.sendTo_keepsPorts (t : Target) (f : OutFrame) (s : State) : s.KeepsPorts (s.sendTo t f) := by
  unfold State.sendTo
  split
  · exact .of_same rfl rfl rfl rfl rfl
  · exact .refl s

/-! ## Console lanes (R25 to R29) -/

theorem ConsolePort.Bounded.withFifo {c : ConsolePort} (hc : c.Bounded) {l : List FifoEntry} (hl : l.length ≤ Config.fifoDepth)
    (hlists : ∀ e ∈ l, ∀ mods list m, e = .keys mods list m → list.length ≤ Config.keyCap) :
    ({ c with fifo := l } : ConsolePort).Bounded := by
  obtain ⟨-, hsnap, hrising, -⟩ := hc
  exact ⟨hl, hsnap, hrising, hlists⟩

theorem ConsolePort.Bounded.withClass {c : ConsolePort} (hc : c.Bounded) (a : Bool) (cls : Option PortClass) :
    ({ c with attached := a, cls := cls } : ConsolePort).Bounded := hc

theorem ConsolePort.Bounded.flush {c : ConsolePort} (hc : c.Bounded) : c.flush.Bounded :=
  hc.withFifo (by decide) fun e he mods list m h => by
    rw [List.mem_singleton.1 he] at h
    cases h

theorem mem_updFirst {α : Type} {c : α → Bool} {f : α → α} {l : List α} {x : α} (h : x ∈ updFirst c f l) :
    x ∈ l ∨ ∃ y ∈ l, c y = true ∧ x = f y := by
  induction l with
  | nil => cases h
  | cons y ys ih =>
    unfold updFirst at h
    split at h
    · rcases List.mem_cons.1 h with rfl | h
      · exact .inr ⟨y, List.mem_cons_self .., ‹_›, rfl⟩
      · exact .inl (List.mem_cons_of_mem _ h)
    · rcases List.mem_cons.1 h with rfl | h
      · exact .inl (List.mem_cons_self ..)
      · rcases ih h with h | ⟨z, hz, hc, he⟩
        · exact .inl (List.mem_cons_of_mem _ h)
        · exact .inr ⟨z, List.mem_cons_of_mem _ hz, hc, he⟩

theorem mem_updNewest {α : Type} {c : α → Bool} {f : α → α} {l : List α} {x : α} (h : x ∈ updNewest c f l) :
    x ∈ l ∨ ∃ y ∈ l, c y = true ∧ x = f y := by
  simpa only [List.mem_reverse] using mem_updFirst (List.mem_reverse.1 h)

/-- An entry of at most twelve keys (R27). -/
def FifoEntry.Bounded (e : FifoEntry) : Prop := ∀ mods list m, e = .keys mods list m → list.length ≤ Config.keyCap

theorem FifoEntry.keys_bounded {mods : ModSet} {list : List Key} {m : Bool} (h : list.length ≤ Config.keyCap) :
    (FifoEntry.keys mods list m).Bounded := fun _ _ _ e => by
  cases e
  exact h

theorem FifoEntry.motion_bounded (dx dy wheel : Int) (b : ButtonSet) (m : Bool) : (FifoEntry.motion dx dy wheel b m).Bounded := nofun

theorem ConsolePort.Bounded.entries {c : ConsolePort} (hc : c.Bounded) : ∀ e ∈ c.fifo, e.Bounded := hc.2.2.2

/-- What an arrival makes of a FIFO: one bounded entry more where there is room, or entries of the same number. -/
theorem ConsolePort.Bounded.append {c : ConsolePort} (hc : c.Bounded) {e : FifoEntry} (he : e.Bounded) (hroom : c.fifo.length < Config.fifoDepth) :
    ({ c with fifo := c.fifo ++ [e] } : ConsolePort).Bounded :=
  hc.withFifo (by rw [List.length_append]; exact hroom) fun x hx => by
    rcases List.mem_append.1 hx with hx | hx
    · exact hc.entries x hx
    · rw [List.mem_singleton.1 hx]
      exact he

theorem ConsolePort.Bounded.updNewest {c : ConsolePort} (hc : c.Bounded) (k : FifoEntry → Bool) {f : FifoEntry → FifoEntry}
    (hf : ∀ e, (f e).Bounded) : ({ c with fifo := Machine.updNewest k f c.fifo } : ConsolePort).Bounded :=
  hc.withFifo (by rw [updNewest_length]; exact hc.1) fun x hx => by
    rcases mem_updNewest hx with hx | ⟨y, -, -, rfl⟩
    · exact hc.entries x hx
    · exact hf y

theorem ConsolePort.Bounded.pushKeys {c : ConsolePort} (hc : c.Bounded) {mods : ModSet} {list : List Key} {mark : Bool} {l : List FifoEntry}
    (hlist : list.length ≤ Config.keyCap) (h : Machine.pushKeys mods list mark c.fifo = some l) :
    ({ c with fifo := l } : ConsolePort).Bounded := by
  unfold Machine.pushKeys at h
  split at h
  · obtain rfl := Option.some.inj h
    exact hc.append (FifoEntry.keys_bounded hlist) ‹_›
  · split at h
    · obtain rfl := Option.some.inj h
      exact hc.updNewest _ fun _ => FifoEntry.keys_bounded hlist
    · cases h

theorem ConsolePort.Bounded.pushMotion {c : ConsolePort} (hc : c.Bounded) {dx dy wheel : Int} {b : ButtonSet} {mark : Bool} {l : List FifoEntry}
    (h : Machine.pushMotion dx dy wheel b mark c.fifo = some l) :
    ({ c with fifo := l } : ConsolePort).Bounded := by
  unfold Machine.pushMotion at h
  split at h
  · obtain rfl := Option.some.inj h
    exact hc.append (FifoEntry.motion_bounded _ _ _ _ _) ‹_›
  · split at h
    · rename_i m hm
      obtain rfl := Option.some.inj h
      obtain ⟨old, -, hmerge⟩ := Option.bind_eq_some_iff.1 hm
      refine hc.updNewest _ fun _ => ?_
      unfold mergeMotion at hmerge
      split at hmerge
      · split at hmerge
        · obtain rfl := Option.some.inj hmerge
          exact FifoEntry.motion_bounded _ _ _ _ _
        · cases hmerge
      all_goals cases hmerge
    · cases h

theorem State.storeFifo_keepsPorts (p : Port) (fifo : Option (List FifoEntry)) (s : State)
    (h : ∀ l ∈ fifo, s.ports[p].Bounded → ({ s.ports[p] with fifo := l } : ConsolePort).Bounded) : s.KeepsPorts (s.storeFifo p fifo) := by
  cases fifo with
  | some l => exact s.modPort_keepsPorts p _ (h l rfl)
  | none => exact s.raise_keepsPorts ..

theorem State.activity_keepsPorts (s : State) : s.KeepsPorts s.activity := .of_same rfl rfl rfl rfl rfl

theorem State.arriveKeys_keepsPorts (p : Port) (mods : ModSet) {list : KeyList} (hlist : keyListOk list = true) (s : State) :
    s.KeepsPorts (s.arriveKeys p mods list) := by
  cases list with
  | rollover => exact s.activity_keepsPorts
  | keys l =>
    exact s.activity_keepsPorts.trans (State.storeFifo_keepsPorts p _ _ fun _ hl hc => hc.pushKeys (of_decide_eq_true hlist) hl)

theorem State.arriveMotion_keepsPorts (p : Port) (dx dy : BitVec 16) (wheel buttons : Byte) (s : State) :
    s.KeepsPorts (s.arriveMotion p dx dy wheel buttons) :=
  s.activity_keepsPorts.trans (State.storeFifo_keepsPorts p _ _ fun _ hl hc => hc.pushMotion hl)

theorem State.attachConsole_keepsPorts (p : Port) (c : PortClass) (s : State) : s.KeepsPorts (s.attachConsole p c) := by
  have hport := s.modPort_keepsPorts p (fun port => { (if port.attached then port.flush else port) with attached := true, cls := some c })
    fun hc => by
      refine ConsolePort.Bounded.withClass ?_ true (some c)
      split
      · exact hc.flush
      · exact hc
  exact hport.trans (.of_same rfl rfl rfl rfl rfl)

theorem State.detachConsole_keepsPorts (p : Port) (s : State) : s.KeepsPorts (s.detachConsole p) :=
  ite_keepsPorts (s.modPort_keepsPorts p _ fun hc => hc.flush.withClass false s.ports[p].cls) (.refl s)

/-! ## Entries of the merge engine (R30 to R35) -/

theorem firstAppearances_length_le (l : List Key) : ∀ seen : List Key, (firstAppearances seen l).length ≤ l.length := by
  induction l with
  | nil => exact fun _ => Nat.le_refl _
  | cons k ks ih =>
    intro seen
    unfold firstAppearances
    split
    · exact (ih seen).trans (Nat.le_succ _)
    · exact Nat.succ_le_succ (ih _)

theorem cleanKeys_length_le (list : List Key) : (cleanKeys list).length ≤ list.length :=
  (firstAppearances_length_le _ _).trans (List.length_filter_le ..)

theorem ConsolePort.Bounded.withSnapshot {c : ConsolePort} (hc : c.Bounded) {keys : List Key} (hk : keys.length ≤ Config.keyCap) (mods : ModSet)
    (b : Bool) : ({ c with snapMods := mods, snapKeys := keys, inChord := b } : ConsolePort).Bounded := by
  obtain ⟨hfifo, -, hrising, hlists⟩ := hc
  exact ⟨hfifo, hk, hrising, hlists⟩

theorem ConsolePort.Bounded.emptied {c : ConsolePort} (hc : c.Bounded) : c.emptied.Bounded := by
  obtain ⟨hfifo, -, -, hlists⟩ := hc
  exact ⟨hfifo, Nat.zero_le _, .nil, hlists⟩

theorem State.setHeld_keepsPorts (p : Port) (b : ButtonSet) (s : State) : s.KeepsPorts (s.setHeld p b) := s.modPort_keepsPorts p _ id

theorem State.takeKeys_keepsPorts (p : Port) (mods : ModSet) {list : List Key} (hlist : list.length ≤ Config.keyCap) (swallowed : Bool)
    (s : State) : s.KeepsPorts (s.takeKeys p mods list swallowed) := by
  rw [State.takeKeys_eq]
  exact ((s.keysReleased_inputOnly ..).trans (State.keysPressed_inputOnly ..)).keepsPorts.trans
    (State.modPort_keepsPorts _ _ _ fun hc => hc.withSnapshot ((cleanKeys_length_le list).trans hlist) mods true)

theorem State.takeMotion_keepsPorts (p : Port) (dx dy wheel : Int) (b : ButtonSet) (swallowed : Bool) (s : State) :
    s.KeepsPorts (s.takeMotion p dx dy wheel b swallowed) :=
  (s.setHeld_keepsPorts p b).trans (s.takeMotion_inputOnly ..).keepsPorts

theorem State.handButtonReleases_keepsPorts (p : Port) (b releases : ButtonSet) (s : State) :
    s.KeepsPorts (s.handButtonReleases p b releases) :=
  ite_keepsPorts (.refl s) ((s.setHeld_keepsPorts p b).trans (s.pointerEvent_inputOnly ⟨p, 0, 0, 0, b, releases, 0⟩).keepsPorts)

theorem State.takeReleaseAll_keepsPorts (p : Port) (s : State) : s.KeepsPorts (s.takeReleaseAll p) := by
  rw [State.takeReleaseAll_eq]
  exact ((s.snapshotReleased_inputOnly p).keepsPorts.trans (State.handButtonReleases_keepsPorts ..)).trans
    (State.modPort_keepsPorts _ _ _ ConsolePort.Bounded.emptied)

theorem State.takeEntry_keepsPorts (p : Port) {e : FifoEntry} (he : e.Bounded) (s : State) : s.KeepsPorts (s.takeEntry p e) := by
  cases e with
  | keys mods list m => exact s.takeKeys_keepsPorts p mods (he mods list m rfl) m
  | motion dx dy wheel b m => exact s.takeMotion_keepsPorts ..
  | releaseAll => exact s.takeReleaseAll_keepsPorts p

/-- The entry taken is one of those that waited. -/
theorem State.mergeTake_keepsPorts (s : State) : s.KeepsPorts s.mergeTake := by
  unfold State.mergeTake
  split
  · exact .refl s
  · rename_i p _
    split
    · exact .refl s
    · rename_i e rest hfifo
      have hlast : s.KeepsPorts { s with mergeLast := p } := .of_same rfl rfl rfl rfl rfl
      have htaken : s.KeepsPorts (({ s with mergeLast := p } : State).modPort p fun q => { q with fifo := rest }) :=
        hlast.trans (State.modPort_keepsPorts p _ _ fun (hc : s.ports[p].Bounded) => by
          refine hc.withFifo ?_ fun x hx => hc.entries x (hfifo ▸ List.mem_cons_of_mem _ hx)
          have := hc.1
          rw [hfifo] at this
          exact (Nat.le_succ _).trans this)
      have hentry : s.WithinLimits → e.Bounded := fun hs => (hs.1 p).entries e (hfifo ▸ List.mem_cons_self ..)
      exact ⟨fun hs => (htaken.trans (State.takeEntry_keepsPorts p (hentry hs) _)).limits hs,
        fun hs => (htaken.trans (State.takeEntry_keepsPorts p (hentry hs) _)).engine hs⟩

/-! ## Target lanes (R103 to R115) -/

theorem State.clearInput_keepsPorts (t : Target) (s : State) : s.KeepsPorts (s.clearInput t) := by
  refine ⟨(State.books_keepsLimits _ _ s fun _ _ hc => hc.suppressAll ..).within fun p => ?_,
    fun _ => State.SameEngine.executionSound ⟨rfl, rfl, rfl, fun _ => ⟨rfl, rfl⟩⟩⟩
  show (updAll s.ports _)[p] = _
  rw [updAll_get]
  rfl

/-- A teardown (R104): the command being executed for t, if any, loses its reply (R164). -/
theorem State.teardown_keepsPorts (t : Target) (s : State) : s.KeepsPorts (s.teardown t) := by
  rw [State.teardown_eq]
  refine ⟨fun hs => ⟨((s.clearInput_keepsPorts t).limits hs).1, fun u => ?_⟩, fun _ hs e he => ?_⟩
  · show (upd s.targets t TargetPort.tornDown)[u].Sound
    rw [upd_get_eq]
    split
    · exact (hs.2 u).tornDown
    · exact hs.2 u
  · obtain ⟨e₀, he₀, rfl⟩ := Option.map_eq_some_iff.1 he
    obtain ⟨hreset, hframe⟩ := hs e₀ he₀
    refine ⟨hreset, fun f hf => ?_⟩
    by_cases ht : e₀.sender = t
    · rw [Execution.afterTeardown, if_pos ht] at hf
      cases hf
    · rw [Execution.afterTeardown, if_neg ht] at hf ⊢
      show (upd s.targets t TargetPort.tornDown)[e₀.sender].attached = true ∧
        (upd s.targets t TargetPort.tornDown)[e₀.sender].inbox = some f ∧ _
      rw [upd_get_ne _ _ _ _ ht]
      exact hframe f hf

theorem State.detachTarget_keepsPorts (t : Target) (s : State) : s.KeepsPorts (s.detachTarget t) :=
  ite_keepsPorts (s.teardown_keepsPorts t) (.refl s)

/-- The attach of an UNATTACHED port. -/
theorem State.attachUnattached_keepsPorts (t : Target) (m : Mode) (s : State) (h : s.targets[t].attached = false) :
    s.KeepsPorts (s.modTarget t (TargetPort.attach m)) := by
  refine ⟨(s.modTarget_keepsLimits t _ fun hp => hp.attach m h).within fun _ => rfl, fun _ hs e he => ?_⟩
  obtain ⟨hreset, hframe⟩ := hs e he
  refine ⟨hreset, fun f hf => ?_⟩
  have hother : e.sender ≠ t := fun ht => by
    subst ht
    exact Bool.false_ne_true (h.symm.trans (hframe f hf).1)
  rw [State.modTarget_other _ _ hother]
  exact hframe f hf

theorem State.attachTarget_keepsPorts (t : Target) (m : Mode) (s : State) : s.KeepsPorts (s.attachTarget t m) := by
  unfold State.attachTarget
  split
  · exact (s.teardown_keepsPorts t).trans (State.attachUnattached_keepsPorts t m _ (State.teardown_unattached t s))
  · exact s.attachUnattached_keepsPorts t m (Bool.eq_false_iff.2 ‹_›)

theorem State.changeMode_keepsPorts (t : Target) (m : Mode) (s : State) : s.KeepsPorts (s.changeMode t m) := by
  have hsync : ∀ p : TargetPort, ((p.changeMode m).requestSync (s.desktop t)).attached = p.attached ∧
      ((p.changeMode m).requestSync (s.desktop t)).inbox = p.inbox := fun p => by
    obtain ⟨ha, -, -, -, hi, -⟩ := (p.changeMode m).requestSync_keeps (s.desktop t)
    exact ⟨ha, hi⟩
  unfold State.changeMode
  dsimp only
  split
  · have hboth : (s.modTarget t (TargetPort.changeMode m)).modTarget t (TargetPort.requestSync (s.desktop t)) =
        s.modTarget t fun p => (p.changeMode m).requestSync (s.desktop t) := by
      simp only [State.modTarget, upd_upd]
      rfl
    rw [hboth]
    exact s.portEnd_keepsPorts t _ (fun p => (hsync p).1) (fun p => (hsync p).2) fun h => (h.changeMode m).requestSync _
  · exact s.portEnd_keepsPorts t _ (fun _ => rfl) (fun _ => rfl) fun h => h.changeMode m

theorem State.grantCredit_keepsPorts (t : Target) (n : Nat) (s : State) : s.KeepsPorts (s.grantCredit t n) :=
  s.portEnd_keepsPorts t _ (fun _ => rfl) (fun _ => rfl) fun h => (h.addCredit n).toOrderly

theorem State.reportLeds_keepsPorts (t : Target) (l : LedSet) (s : State) : s.KeepsPorts (s.reportLeds t l) :=
  (s.portEnd_keepsPorts t (fun p => { p with leds := l }) (fun _ => rfl) (fun _ => rfl) fun h => (h.setLeds l).toOrderly).trans
    (.of_same rfl rfl rfl rfl rfl)

/-- A P_CONTROL fills an empty inbox only, where no frame being executed waits (R162). -/
theorem State.offerControl_keepsPorts (t : Target) (f : ControlFrame) (s : State) (h : s.targets[t].attached = true) :
    s.KeepsPorts (s.offerControl t f) := by
  unfold State.offerControl
  split
  · exact s.sendTo_keepsPorts ..
  · rename_i hempty
    refine ⟨(s.modTarget_keepsLimits t _ fun hp => hp.fillInbox f h).within fun _ => rfl, fun _ hs e he => ?_⟩
    obtain ⟨hreset, hframe⟩ := hs e he
    refine ⟨hreset, fun g hg => ?_⟩
    have hother : e.sender ≠ t := fun ht => by
      subst ht
      obtain ⟨-, hinbox, -⟩ := hframe g hg
      exact hempty (by rw [hinbox]; rfl)
    rw [State.modTarget_other _ _ hother]
    exact hframe g hg

theorem State.sendReport_keepsPorts (t : Target) (s : State) : s.KeepsPorts (s.sendReport t) := by
  unfold State.sendReport
  split
  · exact .refl s
  · rename_i r rest hq
    refine ite_keepsPorts (.refl s) ((s.sendTo_keepsPorts t _).trans
      (State.portEnd_keepsPorts t _ _ (fun _ => rfl) (fun _ => rfl) fun h => h.popReport (r := r) ?_))
    rw [State.sendTo_targets]
    exact hq

theorem State.stallExpiry_keepsPorts (t : Target) (s : State) : s.KeepsPorts (s.stallExpiry t) := by
  refine ite_keepsPorts (.refl s) ?_
  rw [State.raise_modTarget (f := TargetPort.stalled) fun _ => rfl]
  exact (s.raise_keepsPorts ..).trans (State.portEnd_keepsPorts t _ _ (fun _ => rfl) (fun _ => rfl) fun h => h.stalled.toOrderly)

/-! ## Power states (R146 to R152, R158) -/

theorem TargetPort.resume_keeps (c : Nat) (z : DeskSize) (p : TargetPort) :
    (p.resume c z).attached = p.attached ∧ (p.resume c z).inbox = p.inbox := by
  have hmoved : ∀ (l : List Report) (q : TargetPort), (l.foldl (fun acc r => acc.offer c r) q).attached = q.attached ∧
      (l.foldl (fun acc r => acc.offer c r) q).inbox = q.inbox := by
    intro l
    induction l with
    | nil => exact fun _ => ⟨rfl, rfl⟩
    | cons r l ih =>
      intro q
      obtain ⟨ha, -, -, -, hi, -⟩ := TargetPort.offer_keeps c r q
      exact ⟨(ih _).1.trans ha, (ih _).2.trans hi⟩
  unfold TargetPort.resume
  dsimp only
  split <;> exact hmoved _ _

theorem State.resume_keepsPorts (t : Target) (s : State) (h : s.targets[t].power = .suspended ∨ s.targets[t].power = .waking) :
    s.KeepsPorts (s.resume t) :=
  s.portEnd_keepsPorts t _ (fun p => (p.resume_keeps _ _).1) (fun p => (p.resume_keeps _ _).2) fun hp => hp.resume _ _ h

theorem State.takePower_keepsPorts (t : Target) (v : PowerValue) (s : State) : s.KeepsPorts (s.takePower t v) := by
  unfold State.takePower
  split
  case h_1 => exact s.resume_keepsPorts t (.inl ‹_›)
  case h_2 => exact s.resume_keepsPorts t (.inr ‹_›)
  case h_5 =>
    rename_i hp
    exact (s.clearInput_keepsPorts t).trans (State.modTarget_keepsPorts t _ _ (fun _ => rfl) (fun _ => rfl) fun h => h.suspend hp)
  all_goals exact .refl s

/-- A wake is tried again within the retries the policy allows, which are few (R151, R166). -/
theorem State.wakeExpiry_keepsPorts (t : Target) (s : State) (hretry : s.policies[t].wakeRetry ≤ 1) : s.KeepsPorts (s.wakeExpiry t) := by
  unfold State.wakeExpiry
  split
  · rename_i hwaking
    split
    · rename_i hr
      refine (s.sendTo_keepsPorts t _).trans (State.modTarget_keepsPorts t _ _ (fun _ => rfl) (fun _ => rfl) fun h => ?_)
      rw [State.sendTo_targets] at h ⊢
      exact h.retryWake _ hwaking.1 (hr.trans_le hretry)
    · have hfailed := s.modTarget_keepsPorts t TargetPort.failWake (fun _ => rfl) (fun _ => rfl) fun h => h.failWake hwaking.1
      exact (hfailed.trans (State.clearInput_keepsPorts t _)).trans (State.raise_keepsPorts ..)
  · exact .refl s

end Sys2Proof.Machine
end

section
/-! SUPPORT. Heads, resets and the control engine keep ports and engine sound (R124 to R177). -/

namespace Sys2Proof.Machine

/-! ## Heads, displays and a completed release (R124 to R144, R20 to R22) -/

theorem State.checkMismatch_keepsPorts (c : Display → Bool) (s : State) : s.KeepsPorts (s.checkMismatch c) := by
  obtain ⟨notices, sent, h⟩ := s.checkMismatch_spec c
  rw [h.1]
  exact .of_same rfl rfl rfl rfl rfl

theorem State.headFrameEnd_keepsPorts (h : Head) (g : Geometry) (picture : Nat) (s : State) : s.KeepsPorts (s.headFrameEnd h g picture) := by
  have hhead : s.KeepsPorts (s.modHead h (HeadState.frameEnd g picture)) := .of_same rfl rfl rfl rfl rfl
  exact ite_keepsPorts ((hhead.trans (ite_keepsPorts (State.reevaluate_inputOnly ..).keepsPorts (.refl _))).trans
    (State.checkMismatch_keepsPorts ..)) hhead

theorem State.displayFrame_keepsPorts (d : Display) (s : State) : s.KeepsPorts (s.displayFrame d) := by
  have hframe := s.composeFrame_frame d
  refine ite_keepsPorts (.of_same ?_ ?_ ?_ ?_ ?_) (.of_same rfl rfl rfl rfl rfl)
  exacts [(congrArg State.ports hframe :), (congrArg State.targets hframe :), (congrArg State.executing hframe :),
    (congrArg State.resetAsserted hframe :), (congrArg State.policies hframe :)]

theorem State.releaseDetached_keepsLimits (s : State) : s.KeepsLimits s.releaseDetached := by
  unfold State.releaseDetached
  split <;> exact .of_ports rfl rfl

theorem State.rehomed_keepsLimits (s : State) : s.KeepsLimits s.rehomed := by
  rw [State.rehomed_eq]
  exact .of_ports rfl rfl

theorem State.released_keepsLimits (s : State) : s.KeepsLimits s.released :=
  ite_keepsLimits (s.rehomed_keepsLimits.trans (State.releaseDetached_keepsLimits _))
    (s.rehomed_keepsLimits.trans (State.reevaluate_keepsLimits ..))

/-! ## The resets (R165, R176) -/

/-- Every port at its power-on value (R23, R101). -/
theorem State.withinLimits_of_initial {s : State} (hports : ∀ p : Port, s.ports[p] = ConsolePort.initial)
    (htargets : ∀ u : Target, s.targets[u] = TargetPort.initial) : s.WithinLimits := by
  refine ⟨fun p => ?_, fun u => ?_⟩
  · rw [hports]
    exact ⟨by decide, by decide, by decide, fun e he => nomatch he⟩
  · rw [htargets, TargetPort.sound_iff]
    decide

theorem State.resetFocus_keepsPorts (s : State) : s.KeepsPorts s.resetFocus := by
  unfold State.resetFocus
  split
  · exact .refl s
  · exact .of_same rfl rfl rfl rfl rfl

theorem State.resetFocus_executing (s : State) : s.resetFocus.executing = s.executing := by
  unfold State.resetFocus
  split <;> rfl

theorem State.hardReset_keepsPorts (s : State) : s.KeepsPorts s.hardReset := by
  have hblocks : s.KeepsPorts s.blocksReset :=
    ⟨fun _ => State.withinLimits_of_initial (fun p => by simp [State.blocksReset]) fun u => by simp [State.blocksReset],
      fun _ _ => State.executionSound_of_free rfl⟩
  exact hblocks.trans (State.resetFocus_keepsPorts _)

theorem State.releaseReset_keepsPorts (s : State) : s.KeepsPorts s.releaseReset := by
  unfold State.releaseReset
  split
  · exact ⟨id, fun _ hs e he => ⟨rfl, (hs e he).2⟩⟩
  · exact .refl s

theorem State.powerOn_keepsPorts (cfgt : Target) (lock : Bool) (pending : List Instr) (s : State) :
    s.KeepsPorts { State.powerOn cfgt lock with pending := pending } :=
  ⟨fun _ => State.withinLimits_of_initial (State.powerOn_ports cfgt lock) (State.powerOn_targets cfgt lock),
    fun _ _ => State.executionSound_of_free rfl⟩

/-! ## The parts of DESK_RESET (R122, R161, R177) -/

theorem State.cancelWakes_limits {s : State} (hs : s.WithinLimits) : s.deskResetWake.WithinLimits := by
  refine ⟨hs.1, fun u => ?_⟩
  show (updAll s.targets _)[u].Sound
  rw [updAll_get]
  exact (hs.2 u).cancelWake

theorem TargetPort.cancelWake_keeps (p : TargetPort) : p.cancelWake.attached = p.attached ∧ p.cancelWake.inbox = p.inbox := by
  unfold TargetPort.cancelWake
  split <;> exact ⟨rfl, rfl⟩

theorem foldl_keepsPorts {α : Type} {f : State → α → State} (h : ∀ (s : State) (a : α), s.KeepsPorts (f s a)) (l : List α) (s : State) :
    s.KeepsPorts (l.foldl f s) := by
  induction l generalizing s with
  | nil => exact .refl s
  | cons a l ih => exact (h s a).trans (ih _)

theorem foldl_executing {α : Type} {f : State → α → State} (h : ∀ (s : State) (a : α), (f s a).executing = s.executing) (l : List α)
    (s : State) : (l.foldl f s).executing = s.executing := by
  induction l generalizing s with
  | nil => rfl
  | cons a l ih => exact (ih _).trans (h s a)

theorem State.suppressHeld_keepsPorts (d : Detector) (s : State) :
    s.KeepsPorts { s with ports := updAll s.ports fun _ port => port.suppressHeld, detector := d } := by
  have hlimits : s.KeepsLimits { s with ports := updAll s.ports fun _ port => port.suppressHeld, detector := d } :=
    (s.books_keepsLimits (fun _ port => port.suppressHeld) s.keyStates fun _ c (hc : c.Rising) => hc.suppressAll ..).trans (.of_ports rfl rfl)
  refine ⟨hlimits.within fun p => ?_, fun _ => State.SameEngine.executionSound ⟨rfl, rfl, rfl, fun _ => ⟨rfl, rfl⟩⟩⟩
  show (updAll s.ports _)[p] = _
  rw [updAll_get]
  rfl

theorem State.deskResetFocus_keepsPorts (s : State) : s.KeepsPorts s.deskResetFocus ∧ s.deskResetFocus.executing = s.executing := by
  have hcleared := foldl_keepsPorts (fun x t => x.clearInput_keepsPorts t) (List.finRange 8) s
  have hengine := foldl_executing (f := fun acc t => acc.clearInput t) (fun _ _ => rfl) (List.finRange 8) s
  unfold State.deskResetFocus
  dsimp only
  generalize (List.finRange 8).foldl (fun acc t => acc.clearInput t) s = x at hcleared hengine ⊢
  have hreset := (x.suppressHeld_keepsPorts Detector.initial).trans (State.resetFocus_keepsPorts _)
  exact ⟨(hcleared.trans hreset).trans (.of_same rfl rfl rfl rfl rfl), (State.resetFocus_executing _).trans hengine⟩

theorem State.portEnd_keepsPorts_of_sound (t : Target) (s : State) : s.KeepsPorts (s.portEnd t) := by
  obtain ⟨ha, -, -, -, hi, -⟩ := s.targets[t].finish_keeps (s.view t) (s.buttonSet t) (s.desktop t) s.desk.stallTime
  exact .of_target rfl (upd_congr rfl) rfl rfl rfl ha hi fun hp => hp.finish (s.view t) (s.buttonSet t) (s.desktop t) s.desk.stallTime

theorem State.deskResetPorts_keepsPorts (s : State) : s.KeepsPorts s.deskResetPorts ∧ s.deskResetPorts.executing = s.executing := by
  have hemptied : s.KeepsPorts { s with targets := updAll s.targets fun _ p => p.deskReset } := by
    refine ⟨fun hs => ⟨hs.1, fun u => ?_⟩, fun _ => State.SameEngine.executionSound ⟨rfl, rfl, rfl, fun u => ?_⟩⟩
    · show (updAll s.targets _)[u].Sound
      rw [updAll_get]
      exact (hs.2 u).deskReset
    · show (updAll s.targets _)[u].attached = _ ∧ (updAll s.targets _)[u].inbox = _
      rw [updAll_get]
      exact ⟨rfl, rfl⟩
  exact ⟨hemptied.trans (foldl_keepsPorts (fun x t => x.portEnd_keepsPorts_of_sound t) _ _),
    foldl_executing (f := fun acc t => acc.portEnd t) (fun _ _ => rfl) _ _⟩

theorem State.takePart_keepsPorts (stage : ResetStage) (s : State) :
    s.KeepsPorts (s.takePart stage) ∧ (s.takePart stage).executing = s.executing := by
  cases stage with
  | focusUnit => exact s.deskResetFocus_keepsPorts
  | targetPorts => exact s.deskResetPorts_keepsPorts
  | compositor | layoutStore | noticeRecord | answer => exact ⟨.of_same rfl rfl rfl rfl rfl, rfl⟩

/-! ## A frame taken (R163, R164) -/

/-- The engine, free until now, has taken frame f of t, of command c. -/
structure State.Taken (s : State) (t : Target) (f : ControlFrame) (c : Option ControlCommand) : Prop where
  running : s.resetAsserted = false
  free    : s.executing = none
  inbox   : s.targets[t].inbox = some f
  command : controlCommand f.command f.args = c

/-- With no command in progress a reply leaves nothing to look after. -/
theorem State.reply_keepsPorts (t : Target) (f : ControlFrame) (a : Answer) {s : State} (h : s.executing = none) :
    s.KeepsPorts (s.reply t f a) := by
  have hcleared : (s.sendTo t (.reply t f.tag a.code a.data)).KeepsLimits (s.reply t f a) :=
    State.modTarget_keepsLimits t _ _ fun hp => hp.clearInbox
  have hexecuting : (s.reply t f a).executing = s.executing := (congrArg State.executing (s.reply_delivers t f a) :)
  exact ⟨fun hs => hcleared.within (fun _ => rfl) ((s.sendTo_keepsPorts t _).limits hs),
    fun _ _ => State.executionSound_of_free (hexecuting.trans h)⟩

theorem State.nextFrame_inbox {s : State} {t : Target} {f : ControlFrame} (h : s.nextFrame = some (t, f)) : s.targets[t].inbox = some f := by
  obtain ⟨u, -, hu⟩ := List.exists_of_findSome?_eq_some h
  obtain ⟨g, hg, he⟩ := Option.map_eq_some_iff.1 hu
  obtain ⟨rfl, rfl⟩ := Prod.mk.inj he
  exact hg

theorem State.takeFrame_keepsPorts {c : Option ControlCommand} {run : Target → ControlFrame → State → State}
    (h : ∀ (t : Target) (f : ControlFrame) (s : State), s.Taken t f c → s.policies[t].permit = true → s.KeepsPorts (run t f s)) {s : State}
    (hs : s.resetAsserted = false) : s.KeepsPorts (s.takeFrame c run) := by
  unfold State.takeFrame
  split
  · exact .refl s
  rename_i hbusy
  have hfree : s.executing = none := Option.not_isSome_iff_eq_none.1 hbusy
  split
  · exact .refl s
  rename_i t f hnext
  have hinbox := State.nextFrame_inbox hnext
  split
  · rename_i hcommand
    have hlast : s.KeepsPorts { s with ctrlLast := t } := .of_same rfl rfl rfl rfl rfl
    dsimp only
    split
    · exact hlast.trans (h t f _ ⟨hs, hfree, hinbox, hcommand⟩ ‹_›)
    · exact hlast.trans (State.reply_keepsPorts t f _ hfree)
  · exact .refl s

/-- The body of a command executed as one event leaves the engine to the reply. -/
structure State.LeavesEngine (s t : State) : Prop where
  limits    : s.WithinLimits → t.WithinLimits
  executing : t.executing = s.executing

theorem State.LeavesEngine.of_same {s t : State} (hports : t.ports = s.ports) (htargets : t.targets = s.targets)
    (hexecuting : t.executing = s.executing) : s.LeavesEngine t :=
  ⟨fun h => ⟨fun p => by rw [hports]; exact h.1 p, fun u => by rw [htargets]; exact h.2 u⟩, hexecuting⟩

theorem State.LeavesEngine.refl (s : State) : s.LeavesEngine s := ⟨id, rfl⟩

theorem State.LeavesEngine.trans {s t u : State} (h : s.LeavesEngine t) (k : t.LeavesEngine u) : s.LeavesEngine u :=
  ⟨k.limits ∘ h.limits, k.executing.trans h.executing⟩

theorem State.InputOnly.leavesEngine {s t : State} (h : s.InputOnly t) : s.LeavesEngine t := ⟨h.keepsPorts.limits, h.engine.executing⟩

theorem State.control_keepsPorts (c : Option ControlCommand) {body : Target → List Byte → State → State × Answer}
    (h : ∀ (t : Target) (args : List Byte) (s : State), s.LeavesEngine (body t args s).1) {s : State} (hs : s.resetAsserted = false) :
    s.KeepsPorts (s.control c body) := by
  refine State.takeFrame_keepsPorts (fun t f x hx _ => ?_) hs
  obtain ⟨hlimits, hexecuting⟩ := h t f.args x
  have hfree := hexecuting.trans hx.free
  exact .trans ⟨hlimits, fun _ _ => State.executionSound_of_free hfree⟩ (State.reply_keepsPorts t f _ hfree)

/-! ## The commands executed as one event (R168 to R175) -/

theorem State.writeEntry_leavesEngine (t : Target) (e : TableEntry) (new : List Nat) (s : State) : s.LeavesEngine (s.writeEntry t e new) := by
  obtain ⟨honly, hports, -⟩ := s.writeEntry_frame t e new
  have htargets : (s.writeEntry t e new).targets = s.targets := (congrArg State.targets honly :)
  have hexecuting : (s.writeEntry t e new).executing = s.executing := (congrArg State.executing honly :)
  by_cases hc : ∃ p : Port, e = .consoles p
  · obtain ⟨p, rfl⟩ := hc
    refine ⟨fun hs => ⟨fun q => ?_, fun u => by rw [htargets]; exact hs.2 u⟩, hexecuting⟩
    show (s.writeConsole p (ConsoleEntry.ofFields new)).ports[q].Bounded
    by_cases hpin : (ConsoleEntry.ofFields new).pin = s.pin p
    · rw [State.writeConsole_same_pin hpin]
      exact hs.1 q
    · rw [State.writeConsole_new_pin hpin]
      exact ((s.modPort_keepsPorts p (fun q => { q with inChord := q.inChord && (ConsoleEntry.ofFields new).pin.isSome }) id).limits hs).1 q
  · exact .of_same (hports fun p hp => hc ⟨p, hp⟩).1 htargets hexecuting

theorem State.doTableRead_leavesEngine (t : Target) (args : List Byte) (s : State) : s.LeavesEngine (s.doTableRead t args).1 := by
  unfold State.doTableRead
  split <;> exact .refl s

theorem State.doTableWrite_leavesEngine (t : Target) (args : List Byte) (s : State) : s.LeavesEngine (s.doTableWrite t args).1 := by
  unfold State.doTableWrite
  split
  · dsimp only
    split
    · exact .refl s
    · exact s.writeEntry_leavesEngine ..
  · exact .refl s

theorem State.doLayoutHold_leavesEngine (t : Target) (args : List Byte) (s : State) : s.LeavesEngine (s.doLayoutHold t args).1 := by
  unfold State.doLayoutHold
  split
  · exact .of_same rfl rfl rfl
  · split <;> exact .refl s

theorem State.doLayoutAbandon_leavesEngine (t : Target) (args : List Byte) (s : State) : s.LeavesEngine (s.doLayoutAbandon t args).1 := by
  unfold State.doLayoutAbandon
  split
  · exact .of_same rfl rfl rfl
  · exact .refl s

theorem State.completeLayout_leavesEngine (s : State) : s.LeavesEngine s.completeLayout := by
  have hfocus := s.released_focusOnly
  have hreleased : s.LeavesEngine s.released := ⟨s.released_keepsLimits.within hfocus.2.1, (congrArg State.executing hfocus.1 :)⟩
  obtain ⟨notices, sent, hmismatch⟩ := s.released.checkMismatch_all_spec
  rw [State.completeLayout_eq, hmismatch.1]
  exact hreleased.trans (.of_same rfl rfl rfl)

theorem State.doLayoutRelease_leavesEngine (t : Target) (args : List Byte) (s : State) : s.LeavesEngine (s.doLayoutRelease t args).1 := by
  unfold State.doLayoutRelease
  split
  · split
    · exact .refl s
    · exact s.completeLayout_leavesEngine
  · exact .refl s

theorem State.doFocusSet_leavesEngine (t : Target) (args : List Byte) (s : State) : s.LeavesEngine (s.doFocusSet t args).1 := by
  unfold State.doFocusSet
  split
  · exact .refl s
  · exact (s.directed_inputOnly ..).leavesEngine

theorem State.doWake_leavesEngine (t : Target) (args : List Byte) (s : State) : s.LeavesEngine (s.doWake t args).1 := by
  unfold State.doWake
  split
  · exact .refl s
  · exact (s.wakeRequest_inputOnly _).leavesEngine

theorem State.showWindow_leavesEngine (w : Window) (shown : Bool) (s : State) : s.LeavesEngine (s.showWindow w shown).1 := by
  unfold State.showWindow
  split
  · dsimp only
    split
    · exact .refl s
    · exact ((s.showWindow_inputOnly w fun _ => shown).trans (State.reevaluate_inputOnly ..)).leavesEngine
  · exact .refl s

theorem State.doWindowShow_leavesEngine (t : Target) (args : List Byte) (s : State) : s.LeavesEngine (s.doWindowShow t args).1 := by
  unfold State.doWindowShow
  split
  · exact .refl s
  · split
    · exact s.showWindow_leavesEngine ..
    · exact .refl s

theorem State.doNoticeClear_leavesEngine (t : Target) (args : List Byte) (s : State) : s.LeavesEngine (s.doNoticeClear t args).1 := by
  unfold State.doNoticeClear
  split
  · exact .refl s
  · dsimp only
    split
    · exact .refl s
    · exact .of_same rfl rfl rfl

theorem State.doNoticeSubscribe_leavesEngine (t : Target) (args : List Byte) (s : State) : s.LeavesEngine (s.doNoticeSubscribe t args).1 := by
  unfold State.doNoticeSubscribe
  split
  · exact .of_same rfl rfl rfl
  · split
    · exact .of_same rfl rfl rfl
    · exact .refl s

/-! ## The commands executed in parts (R163, R172, R177, R178) -/

theorem State.finish_keepsPorts (e : Execution) (a : Answer) (s : State) : s.KeepsPorts (s.finish e a) := by
  have hfree : s.KeepsPorts { s with executing := none } := ⟨id, fun _ _ => State.executionSound_of_free rfl⟩
  unfold State.finish
  dsimp only
  split
  · exact hfree.trans (State.reply_keepsPorts _ _ _ rfl)
  · exact hfree

/-- The command in progress goes on to work w, with the same sender and frame. -/
theorem State.goOn_executionSound {s : State} {e : Execution} (hs : s.ExecutionSound) (he : s.executing = some e) {w : EngineWork}
    (hcommand : w.command = e.work.command) (hfollows : ∀ f, e.work.Follows f → w.Follows f) :
    ({ s with executing := some { e with work := w } } : State).ExecutionSound := by
  obtain ⟨hreset, hframe⟩ := hs e he
  intro e' he'
  obtain rfl := Option.some.inj he'
  refine ⟨hreset, fun f hf => ?_⟩
  obtain ⟨hattached, hinbox, hc, hpermit, hf'⟩ := hframe f hf
  exact ⟨hattached, hinbox, by rw [hcommand]; exact hc, hpermit, hfollows f hf'⟩

/-- With a block read, the blocks left are still the last ones of the section. -/
theorem EngineWork.Follows.tail {b : StatusBlock} {left : List StatusBlock} {data data' : List Byte} {f : ControlFrame}
    (h : (EngineWork.status (b :: left) data).Follows f) : (EngineWork.status left data').Follows f := by
  intro l hl
  obtain rfl := Option.some.inj hl
  obtain ⟨blocks, hblocks, hsuffix, -⟩ := h (b :: left) rfl
  exact ⟨blocks, hblocks, (List.suffix_cons b left).trans hsuffix, fun he => by
    have := hsuffix.length_le
    rw [← he, List.length_cons] at this
    omega⟩

theorem State.goOn_keepsPorts {s : State} {e : Execution} (he : s.executing = some e) : s.KeepsPorts (s.goOn e) := by
  unfold State.goOn
  split
  · rename_i stage hwork
    split
    · rename_i next _
      obtain ⟨hpart, hexecuting⟩ := s.takePart_keepsPorts stage
      exact ⟨hpart.limits, fun hl hs => State.goOn_executionSound (hpart.engine hl hs) (hexecuting.trans he) (by rw [hwork]; rfl)
        fun f _ _ hl => nomatch hl⟩
    · exact s.finish_keepsPorts ..
  · rename_i b left data hwork
    exact ⟨id, fun _ hs => State.goOn_executionSound hs he (by rw [hwork]; rfl) fun f hf => by
      rw [hwork] at hf
      exact EngineWork.Follows.tail hf⟩
  · exact s.finish_keepsPorts ..

/-- The engine becomes busy with the frame it has taken. -/
theorem State.begun_executionSound {s x : State} {t : Target} {f : ControlFrame} {c : ControlCommand} (h : s.Taken t f (some c))
    (hpermit : s.policies[t].permit = true) (hs : s.WithinLimits) (hx : s.SameEngine x) {w : EngineWork} (hw : w.command = c)
    (hfollows : w.Follows f) : ({ x with executing := some ⟨t, some f, w⟩ } : State).ExecutionSound := by
  intro e he
  obtain rfl := Option.some.inj he
  refine ⟨hx.asserted.trans h.running, fun g hg => ?_⟩
  obtain rfl := Option.some.inj hg
  refine ⟨(hx.senders t).1.trans ((hs.2 t).inbox (by rw [h.inbox]; rfl)), (hx.senders t).2.trans h.inbox, by rw [hw]; exact h.command,
    by show x.policies[t].permit = true; rw [hx.policies]; exact hpermit, hfollows⟩

theorem State.beginDeskReset_keepsPorts {s : State} {t : Target} {f : ControlFrame} (h : s.Taken t f (some .deskReset))
    (hpermit : s.policies[t].permit = true) : s.KeepsPorts (s.beginDeskReset t f) := by
  refine ⟨State.cancelWakes_limits, fun hl _ => State.begun_executionSound (x := s.deskResetWake) (w := .reset .focusUnit) h hpermit hl
    ⟨rfl, rfl, rfl, fun u => ?_⟩ rfl fun _ hl => nomatch hl⟩
  show (updAll s.targets _)[u].attached = _ ∧ (updAll s.targets _)[u].inbox = _
  rw [updAll_get]
  exact TargetPort.cancelWake_keeps _

theorem State.beginStatusRead_keepsPorts {s : State} {t : Target} {f : ControlFrame} (h : s.Taken t f (some .statusRead))
    (hpermit : s.policies[t].permit = true) : s.KeepsPorts (s.beginStatusRead t f) := by
  unfold State.beginStatusRead
  split
  · rename_i blocks hblocks
    cases blocks with
    | nil =>
      rw [State.goOn_status_nil]
      exact s.finish_keepsPorts ..
    | cons b left =>
      refine ⟨id, fun hl _ => State.begun_executionSound h hpermit hl (.refl s) rfl ?_⟩
      intro l hl
      obtain rfl := Option.some.inj hl
      exact ⟨b :: left, hblocks, List.suffix_cons .., (List.cons_ne_self b left).symm⟩
  · exact State.reply_keepsPorts _ _ _ h.free

theorem State.controlPart_keepsPorts (c : ControlCommand) {start : Target → ControlFrame → State → State}
    (h : ∀ (t : Target) (f : ControlFrame) (s : State), s.Taken t f (some c) → s.policies[t].permit = true → s.KeepsPorts (start t f s))
    {s : State} (hs : s.resetAsserted = false) : s.KeepsPorts (s.controlPart c start) := by
  rcases s.controlPart_cases c start with ⟨-, heq⟩ | ⟨e, he, -, heq⟩ | ⟨e, -, -, heq⟩ <;> rw [heq]
  · exact State.takeFrame_keepsPorts h hs
  · exact State.goOn_keepsPorts he
  · exact .refl s

end Sys2Proof.Machine
end

section
/-! PROOFS. Every step keeps FIFOs, queues, credits, power states and the command executed in parts sound (O56). -/

namespace Sys2Proof.Machine

theorem running_keepsPorts {f : State → State} {s t : State} (hr : running s f = .next t) (h : s.resetAsserted = false → s.KeepsPorts (f s)) :
    s.KeepsPorts t := by
  obtain rfl := Host.Outcome.next.inj hr
  split
  · exact .refl s
  · exact h (Bool.eq_false_iff.2 ‹_›)

theorem State.onAttached_keepsPorts (u : Target) {f : State → State} {s : State} (h : s.targets[u].attached = true → s.KeepsPorts (f s)) :
    s.KeepsPorts (onAttached u f s) := by
  unfold onAttached
  split
  · exact h ‹_›
  · exact .refl s

/-- Only WAKE_TIMER_EXPIRY needs a table field in range: the wake retry (R151, R166). -/
theorem exec_keepsPorts {c : Instr} {s t : State} (hretry : ∀ u : Target, s.policies[u].wakeRetry ≤ 1) (h : exec c s = .next t) :
    s.KeepsPorts t := by
  have hsame : ∀ x : State, s.KeepsPorts { s with
      detector := x.detector, deskState := x.deskState, idleTimer := x.idleTimer, heads := x.heads } :=
    fun _ => .of_same rfl rfl rfl rfl rfl
  have hraise : ∀ k i, s.KeepsPorts (s.raise k i) := fun _ _ => s.raise_keepsPorts ..
  cases c with
  | powerOn cfgt lock =>
    obtain rfl := Host.Outcome.next.inj h
    exact s.powerOn_keepsPorts cfgt lock s.pending
  | hardReset =>
    obtain rfl := Host.Outcome.next.inj h
    exact s.hardReset_keepsPorts
  | resetNRelease =>
    obtain rfl := Host.Outcome.next.inj h
    exact s.releaseReset_keepsPorts
  | cAttach p cls => exact running_keepsPorts h fun _ => s.attachConsole_keepsPorts p cls
  | cKeys p mods l =>
    unfold exec execCKeys at h
    refine running_keepsPorts h fun _ => ?_
    split
    · exact hraise ..
    · rename_i hl
      rw [Bool.not_eq_true', Bool.not_eq_false] at hl
      exact ite_keepsPorts (s.arriveKeys_keepsPorts p mods hl) (.refl s)
  | cMotion p dx dy wheel buttons =>
    unfold exec execCMotion at h
    exact running_keepsPorts h fun _ => ite_keepsPorts (s.arriveMotion_keepsPorts p dx dy wheel buttons) (.refl s)
  | cDetach p => exact running_keepsPorts h fun _ => s.detachConsole_keepsPorts p
  | consoleLaneLoss p => exact running_keepsPorts h fun _ => s.detachConsole_keepsPorts p
  | mergeTakeEntry => exact running_keepsPorts h fun _ => s.mergeTake_keepsPorts
  | tapDeadlineExpiry =>
    unfold exec execTapDeadlineExpiry at h
    exact running_keepsPorts h fun _ => ite_keepsPorts (hsame { s with detector := Detector.initial }) (.refl s)
  | leaderDeadlineExpiry =>
    unfold exec execLeaderDeadlineExpiry at h
    exact running_keepsPorts h fun _ => ite_keepsPorts (hsame { s with detector := Detector.initial }) (.refl s)
  | pAttach u m => exact running_keepsPorts h fun _ => s.attachTarget_keepsPorts u m
  | pDetach u => exact running_keepsPorts h fun _ => s.detachTarget_keepsPorts u
  | targetLaneLoss u => exact running_keepsPorts h fun _ => s.detachTarget_keepsPorts u
  | pMode u m => exact running_keepsPorts h fun _ => State.onAttached_keepsPorts u fun _ => s.changeMode_keepsPorts u m
  | pCredit u n =>
    unfold exec execPCredit at h
    exact running_keepsPorts h fun _ =>
      ite_keepsPorts (State.onAttached_keepsPorts u fun _ => s.grantCredit_keepsPorts u n.toNat) (hraise ..)
  | pLeds u l =>
    unfold exec execPLeds at h
    exact running_keepsPorts h fun _ =>
      ite_keepsPorts (State.onAttached_keepsPorts u fun _ => s.reportLeds_keepsPorts u (l.setWidth 5)) (hraise ..)
  | pPower u v =>
    unfold exec execPPower at h
    exact running_keepsPorts h fun _ => ite_keepsPorts (s.takePower_keepsPorts u v) (.refl s)
  | pControl u tag command args =>
    unfold exec execPControl at h
    exact running_keepsPorts h fun _ =>
      ite_keepsPorts (State.onAttached_keepsPorts u (s.offerControl_keepsPorts u ⟨tag, command, args⟩)) (hraise ..)
  | sendReport u => exact running_keepsPorts h fun _ => s.sendReport_keepsPorts u
  | stallTimerExpiry u => exact running_keepsPorts h fun _ => s.stallExpiry_keepsPorts u
  | wakeTimerExpiry u => exact running_keepsPorts h fun _ => s.wakeExpiry_keepsPorts u (hretry u)
  | idleTimerExpiry =>
    exact running_keepsPorts h fun _ =>
      ite_keepsPorts (.refl s) (ite_keepsPorts (hsame { s with idleTimer := some s.desk.deskIdle })
        (hsame { s with deskState := .idle, idleTimer := none }))
  | signalArrival k => exact running_keepsPorts h fun _ => hsame (s.modHead k HeadState.arrival)
  | signalLoss k => exact running_keepsPorts h fun _ => hsame (s.modHead k HeadState.loss)
  | headFrameEnd k g picture => exact running_keepsPorts h fun _ => s.headFrameEnd_keepsPorts k g picture
  | displayFrameStart d => exact running_keepsPorts h fun _ => s.displayFrame_keepsPorts d
  | tableRead => exact running_keepsPorts h (State.control_keepsPorts _ State.doTableRead_leavesEngine)
  | tableWrite => exact running_keepsPorts h (State.control_keepsPorts _ State.doTableWrite_leavesEngine)
  | layoutHold => exact running_keepsPorts h (State.control_keepsPorts _ State.doLayoutHold_leavesEngine)
  | layoutRelease => exact running_keepsPorts h (State.control_keepsPorts _ State.doLayoutRelease_leavesEngine)
  | layoutAbandon => exact running_keepsPorts h (State.control_keepsPorts _ State.doLayoutAbandon_leavesEngine)
  | focusSet => exact running_keepsPorts h (State.control_keepsPorts _ State.doFocusSet_leavesEngine)
  | wake => exact running_keepsPorts h (State.control_keepsPorts _ State.doWake_leavesEngine)
  | windowShow => exact running_keepsPorts h (State.control_keepsPorts _ State.doWindowShow_leavesEngine)
  | statusRead => exact running_keepsPorts h (State.controlPart_keepsPorts _ fun _ _ _ => State.beginStatusRead_keepsPorts)
  | noticeRead => exact running_keepsPorts h (State.control_keepsPorts _ fun _ _ => .refl)
  | noticeClear => exact running_keepsPorts h (State.control_keepsPorts _ State.doNoticeClear_leavesEngine)
  | noticeSubscribe => exact running_keepsPorts h (State.control_keepsPorts _ State.doNoticeSubscribe_leavesEngine)
  | deskReset => exact running_keepsPorts h (State.controlPart_keepsPorts _ fun _ _ _ => State.beginDeskReset_keepsPorts)
  | badCommand => exact running_keepsPorts h (State.control_keepsPorts _ fun _ _ => .refl)
  | badConsoleFrame p bytes =>
    unfold exec execBadConsoleFrame at h
    exact running_keepsPorts h fun _ => ite_keepsPorts (hraise ..) (.refl s)
  | badTargetFrame u bytes =>
    unfold exec execBadTargetFrame at h
    exact running_keepsPorts h fun _ => ite_keepsPorts (hraise ..) (.refl s)

theorem step_keepsPorts {s t : State} (hretry : ∀ u : Target, s.policies[u].wakeRetry ≤ 1) (h : step s = .next t) : s.KeepsPorts t := by
  rcases step_cases h with rfl | ⟨w, hexec⟩ | ⟨c, rest, -, hexec⟩
  · exact .refl _
  · exact exec_keepsPorts hretry hexec
  · have hqueue : s.KeepsPorts { s with pending := rest } := .of_same rfl rfl rfl rfl rfl
    exact hqueue.trans (exec_keepsPorts (s := { s with pending := rest }) hretry hexec)

end Sys2Proof.Machine

open Sys2Proof Sys2Proof.Machine

/-- Settles O56: each event of a target port keeps it sound (`TargetPort.Sound`), whatever an entry of the merge engine does keeps every port
within its limits (`State.InputOnly`), and the engine loses or answers the frame it executes before anything else touches it
(`State.KeepsPorts`), command by command. -/
theorem everyStepKeepsThePortsSound : Obligations.EveryStepKeepsThePortsSound := by
  intro s t htables ⟨hbounded, hpower, hexecution⟩ h
  have hkeeps := step_keepsPorts htables.2.1 h
  have hlimits := s.withinLimits_iff.2 ⟨hbounded, hpower⟩
  obtain ⟨hbounded', hpower'⟩ := t.withinLimits_iff.1 (hkeeps.limits hlimits)
  exact ⟨hbounded', hpower', hkeeps.engine hlimits hexecution⟩

end

section
/-! SUPPORT. The frames of a console lane, check by check (R24 to R29), and an entry that finds its FIFO full. -/

namespace Sys2Proof.Machine

/-! ## The checks of a frame row (R24, R102) -/

theorem exec_cKeys (p : Port) (mods : ModSet) (list : KeyList) {s : State} (hreset : s.resetAsserted = false) :
    exec (.cKeys p mods list) s = .next
      (if !keyListOk list then s.raise .laneError (portSubject p) else if s.ports[p].attached then s.arriveKeys p mods list else s) := by
  show execCKeys p mods list s = _
  rw [execCKeys, running_eq s _ hreset]
  rfl

theorem exec_cKeys_badList (p : Port) (mods : ModSet) {list : KeyList} {s : State} (hreset : s.resetAsserted = false)
    (h : keyListOk list = false) : exec (.cKeys p mods list) s = .next (s.raise .laneError (portSubject p)) := by
  rw [exec_cKeys p mods list hreset, h]
  rfl

theorem exec_cKeys_attached (p : Port) (mods : ModSet) {list : KeyList} {s : State} (hreset : s.resetAsserted = false)
    (h : keyListOk list = true) (hattached : s.ports[p].attached = true) :
    exec (.cKeys p mods list) s = .next (s.arriveKeys p mods list) := by
  rw [exec_cKeys p mods list hreset, h, hattached]
  rfl

theorem exec_cKeys_unattached (p : Port) (mods : ModSet) {list : KeyList} {s : State} (hreset : s.resetAsserted = false)
    (h : keyListOk list = true) (hattached : s.ports[p].attached = false) : exec (.cKeys p mods list) s = .next s := by
  rw [exec_cKeys p mods list hreset, h, hattached]
  rfl

theorem exec_cMotion_attached (p : Port) (dx dy : BitVec 16) (wheel buttons : Byte) {s : State} (hreset : s.resetAsserted = false)
    (hattached : s.ports[p].attached = true) : exec (.cMotion p dx dy wheel buttons) s = .next (s.arriveMotion p dx dy wheel buttons) :=
  (running_eq s _ hreset).trans (congrArg _ (if_pos hattached))

theorem keyListOk_keys {l : List Key} : keyListOk (.keys l) = true ↔ l.length ≤ 12 := by
  rw [keyListOk, decide_eq_true_eq]
  rfl

theorem onAttached_unattached {t : Target} {f : State → State} {s : State} (h : s.targets[t].attached = false) : onAttached t f s = s :=
  if_neg (Bool.not_eq_true _ ▸ h)

/-! ## A C_KEYS or C_MOTION at its FIFO (R27 to R29) -/

theorem pushKeys_room (mods : ModSet) (l : List Key) (mark : Bool) {fifo : List FifoEntry} (h : fifo.length < 8) :
    pushKeys mods l mark fifo = some (fifo ++ [.keys mods l mark]) := if_pos h

theorem pushKeys_overwrites (mods : ModSet) (l : List Key) (mark : Bool) {mods' : ModSet} {l' : List Key} {mark' : Bool}
    {fifo pre post : List FifoEntry} (hfull : fifo.length = 8) (heq : fifo = pre ++ .keys mods' l' mark' :: post)
    (hpost : ∀ e ∈ post, e.isKeys = false) : pushKeys mods l mark fifo = some (pre ++ .keys mods l (mark' || mark) :: post) := by
  have hany : fifo.any FifoEntry.isKeys = true := List.any_eq_true.2 ⟨.keys mods' l' mark', by simp [heq], rfl⟩
  rw [pushKeys, if_neg (by rw [hfull]; decide), if_pos hany, heq, updNewest_append hpost rfl]
  rfl

theorem pushKeys_overruns (mods : ModSet) (l : List Key) (mark : Bool) {fifo : List FifoEntry} (hfull : fifo.length = 8)
    (h : ∀ e ∈ fifo, e.isKeys = false) : pushKeys mods l mark fifo = none := by
  rw [pushKeys, if_neg (by rw [hfull]; decide), if_neg]
  rw [List.any_eq_true]
  rintro ⟨e, he, hkeys⟩
  exact absurd hkeys (by rw [h e he]; nofun)

theorem pushMotion_room (dx dy wheel : Int) (buttons : ButtonSet) (mark : Bool) {fifo : List FifoEntry} (h : fifo.length < 8) :
    pushMotion dx dy wheel buttons mark fifo = some (fifo ++ [.motion dx dy wheel buttons mark]) := if_pos h

theorem newest_append {α : Type} {c : α → Bool} {pre post : List α} {x : α} (hpost : ∀ e ∈ post, c e = false) (hx : c x = true) :
    newest c (pre ++ x :: post) = some x := by
  have hnone : post.reverse.find? c = none :=
    List.find?_eq_none.2 fun e he => by rw [hpost e (List.mem_reverse.1 he)]; nofun
  simp [newest, hnone, hx]

theorem newest_eq_none {α : Type} {c : α → Bool} {l : List α} (h : ∀ e ∈ l, c e = false) : newest c l = none :=
  List.find?_eq_none.2 fun e he => by rw [h e (List.mem_reverse.1 he)]; nofun

/-- At a full FIFO a C_MOTION goes the way of the newest C_MOTION entry. -/
theorem pushMotion_full (dx dy wheel : Int) (buttons : ButtonSet) (mark : Bool) {e : FifoEntry} {fifo pre post : List FifoEntry}
    (hfull : fifo.length = 8) (heq : fifo = pre ++ e :: post) (he : e.isMotion = true) (hpost : ∀ x ∈ post, x.isMotion = false) :
    pushMotion dx dy wheel buttons mark fifo = (mergeMotion dx dy wheel buttons mark e).map fun m => pre ++ m :: post := by
  rw [pushMotion, if_neg (by rw [hfull]; decide), heq, newest_append hpost he, Option.bind_some]
  cases mergeMotion dx dy wheel buttons mark e with
  | none => rfl
  | some m => exact congrArg some (updNewest_append hpost he)

theorem pushMotion_overruns (dx dy wheel : Int) (buttons : ButtonSet) (mark : Bool) {fifo : List FifoEntry}
    (hfull : fifo.length = 8) (h : ∀ e ∈ fifo, e.isMotion = false) : pushMotion dx dy wheel buttons mark fifo = none := by
  rw [pushMotion, if_neg (by rw [hfull]; decide), newest_eq_none h, Option.bind_none]

theorem mergeMotion_same (dx dy wheel dx' dy' wheel' : Int) (buttons : ButtonSet) (mark mark' : Bool) :
    mergeMotion dx dy wheel buttons mark (.motion dx' dy' wheel' buttons mark') =
      some (.motion (max (-32768) (min 32767 (dx' + dx))) (max (-32768) (min 32767 (dy' + dy))) (max (-128) (min 127 (wheel' + wheel)))
        buttons (mark' || mark)) := by
  rw [mergeMotion, if_pos rfl, clamp_eq _ _ _ (by decide), clamp_eq _ _ _ (by decide), clamp_eq _ _ _ (by decide)]

theorem mergeMotion_other {dx dy wheel dx' dy' wheel' : Int} {buttons buttons' : ButtonSet} {mark mark' : Bool} (h : buttons' ≠ buttons) :
    mergeMotion dx dy wheel buttons mark (.motion dx' dy' wheel' buttons' mark') = none := if_neg h

end Sys2Proof.Machine
end

section
/-! PROOFS. Frames of console and target lanes (O7 to O10). -/

namespace Sys2Proof.Machine

theorem exec_cKeys_stores {p : Port} (mods : ModSet) {l : List Key} {s : State} {fifo : Option (List FifoEntry)}
    (hreset : s.resetAsserted = false) (hattached : s.ports[p].attached = true) (hl : l.length ≤ 12)
    (h : pushKeys mods l (decide (s.deskState = .idle) && s.desk.swallowWake) s.ports[p].fifo = fifo) :
    exec (.cKeys p mods (.keys l)) s = .next (s.wakened.storeFifo p fifo) := by
  rw [exec_cKeys_attached p mods hreset (keyListOk_keys.2 hl) hattached, ← h]
  rfl

theorem exec_cMotion_stores {p : Port} {dx dy : BitVec 16} {wheel buttons : Byte} {s : State} {fifo : Option (List FifoEntry)}
    (hreset : s.resetAsserted = false) (hattached : s.ports[p].attached = true)
    (h : pushMotion dx.toInt dy.toInt wheel.toInt (buttons.setWidth 5) (decide (s.deskState = .idle) && s.desk.swallowWake)
      s.ports[p].fifo = fifo) :
    exec (.cMotion p dx dy wheel buttons) s = .next (s.wakened.storeFifo p fifo) := by
  rw [exec_cMotion_attached p dx dy wheel buttons hreset hattached, ← h]
  rfl

/-- A frame row whose range check fails raises LANE_ERROR for its target port (R102). -/
theorem running_targetLaneError {t : Target} {c : Bool} {f : State → State} {s : State} (hreset : s.resetAsserted = false) (h : c = false) :
    running s (fun s => if c then f s else s.targetLaneError t) = .next (s.raise .laneError ⟨t.val + 4, by omega⟩) :=
  (running_eq s _ hreset).trans (congrArg _ (if_neg (Bool.not_eq_true _ ▸ h)))

/-- A frame row that passes its checks is discarded on an UNATTACHED port (R102). -/
theorem running_discards {t : Target} {c : Bool} {f : State → State} {s : State} (hreset : s.resetAsserted = false)
    (hc : c = true) (h : s.targets[t].attached = false) :
    running s (fun s => if c then onAttached t f s else s.targetLaneError t) = .next s :=
  (running_eq s _ hreset).trans (congrArg _ ((if_pos hc).trans (onAttached_unattached h)))

theorem exec_unattachedConsole {p : Port} {s : State} (hreset : s.resetAsserted = false) (h : s.ports[p].attached = false) :
    exec (.cDetach p) s = .next s ∧ exec (.consoleLaneLoss p) s = .next s ∧
      (∀ mods list, (Instr.cKeys p mods list).wf = true → exec (.cKeys p mods list) s = .next s) ∧
      ∀ dx dy wheel buttons, exec (.cMotion p dx dy wheel buttons) s = .next s := by
  have hstays : s.detachConsole p = s := if_neg (Bool.not_eq_true _ ▸ h)
  exact ⟨(running_eq s _ hreset).trans (congrArg _ hstays), (running_eq s _ hreset).trans (congrArg _ hstays),
    fun mods _ hwf => exec_cKeys_unattached p mods hreset hwf h,
    fun _ _ _ _ => (running_eq s _ hreset).trans (congrArg _ (if_neg (Bool.not_eq_true _ ▸ h)))⟩

theorem exec_unattachedTarget {t : Target} {s : State} (hreset : s.resetAsserted = false) (h : s.targets[t].attached = false) :
    exec (.pDetach t) s = .next s ∧ exec (.targetLaneLoss t) s = .next s ∧ (∀ m, exec (.pMode t m) s = .next s) ∧
      (∀ n, (Instr.pCredit t n).wf = true → exec (.pCredit t n) s = .next s) ∧
      (∀ l, (Instr.pLeds t l).wf = true → exec (.pLeds t l) s = .next s) ∧ (∀ v, exec (.pPower t v) s = .next s) ∧
      ∀ tag c args, (Instr.pControl t tag c args).wf = true → exec (.pControl t tag c args) s = .next s := by
  have hstays : s.detachTarget t = s := if_neg (Bool.not_eq_true _ ▸ h)
  exact ⟨(running_eq s _ hreset).trans (congrArg _ hstays), (running_eq s _ hreset).trans (congrArg _ hstays),
    fun _ => (running_eq s _ hreset).trans (congrArg _ (onAttached_unattached h)),
    fun _ hwf => running_discards hreset hwf h, fun _ hwf => running_discards hreset hwf h,
    fun _ => (running_eq s _ hreset).trans (congrArg _ (if_neg (Bool.not_eq_true _ ▸ h))),
    fun _ _ _ hwf => running_discards hreset hwf h⟩

theorem creditOk_eq_false {n : Byte} (h : n = 0 ∨ 32 < n.toNat) : creditOk n = false := by
  rw [← Bool.not_eq_true, creditOk_iff]
  rcases h with rfl | h
  · decide
  · omega

/-- The C_ATTACH's frame (R38): the port just attached shows LEDs exactly when its class is KEYBOARD. -/
theorem State.attachConsole_eq (p : Port) (c : PortClass) (s : State) : s.attachConsole p c = { s with
    ports := upd s.ports p fun q =>
      { q with attached := true, cls := some c, fifo := if q.attached then [.releaseAll] else q.fifo }
    sent := s.sent ++ (if c = .keyboard then [.leds p s.targets[(s.consoles[p].pin).getD s.focus.target].leds] else []) } := by
  have hport : upd s.ports p (fun port => { (if port.attached then port.flush else port) with attached := true, cls := some c }) =
      upd s.ports p fun q => { q with attached := true, cls := some c, fifo := if q.attached then [.releaseAll] else q.fifo } := by
    refine upd_congr ?_
    cases s.ports[p].attached <;> rfl
  rw [State.attachConsole, State.sendLeds_only, State.modPort, hport]
  cases c <;> simp [State.showsLeds, State.ledFrame, State.ledTarget, State.pin]

end Sys2Proof.Machine

open Sys2Proof Sys2Proof.Machine

/-- Settles O7: the attach by `State.attachConsole_eq`, the two ways to lose a port by the one operation they share. -/
theorem consoleAttachAndDetachSetThePort : Obligations.ConsoleAttachAndDetachSetThePort := by
  intro p s hreset
  refine ⟨fun c => (running_eq s _ hreset).trans (congrArg _ (s.attachConsole_eq p c)), fun hattached => ?_⟩
  have hdetach : s.detachConsole p = { s with ports := upd s.ports p fun q => { q with attached := false, fifo := [.releaseAll] } } :=
    if_pos hattached
  exact ⟨(running_eq s _ hreset).trans (congrArg _ hdetach), (running_eq s _ hreset).trans (congrArg _ hdetach)⟩

/-- Settles O8: each clause is one branch of `pushKeys`, stored in the port's FIFO on the wakened desk. -/
theorem keysFrameIsAppendedOrOverwritesTheNewest : Obligations.KeysFrameIsAppendedOrOverwritesTheNewest := by
  intro p mods l s hreset hattached
  refine ⟨exec_cKeys_attached p mods hreset rfl hattached, fun hl hroom => ?_, fun hl hfull => ⟨?_, fun hnone => ?_⟩⟩
  · rw [exec_cKeys_stores mods hreset hattached hl (pushKeys_room mods l _ hroom)]
    exact congrArg (fun v => Host.Outcome.next { s.wakened with ports := v }) (upd_congr rfl)
  · intro mods' l' mark' pre post heq hpost
    exact exec_cKeys_stores mods hreset hattached hl (pushKeys_overwrites mods l _ hfull heq hpost)
  · exact exec_cKeys_stores mods hreset hattached hl (pushKeys_overruns mods l _ hfull hnone)

/-- Settles O9: each clause is one branch of `pushMotion`, stored in the port's FIFO on the wakened desk. -/
theorem motionFrameAppendsMergesOrOverruns : Obligations.MotionFrameAppendsMergesOrOverruns := by
  intro p dx dy wheel buttons s hreset hattached
  refine ⟨fun hroom => ?_, fun hfull pre post dx' dy' wheel' b' mark' heq hpost => ⟨?_, fun hb => ?_⟩, fun hfull hnone => ?_⟩
  · rw [exec_cMotion_stores hreset hattached (pushMotion_room _ _ _ _ _ hroom)]
    exact congrArg (fun v => Host.Outcome.next { s.wakened with ports := v }) (upd_congr rfl)
  · rintro rfl
    exact exec_cMotion_stores hreset hattached ((pushMotion_full _ _ _ _ _ hfull heq rfl hpost).trans (by rw [mergeMotion_same]))
  · exact exec_cMotion_stores hreset hattached ((pushMotion_full _ _ _ _ _ hfull heq rfl hpost).trans (by rw [mergeMotion_other hb]))
  · exact exec_cMotion_stores hreset hattached (pushMotion_overruns _ _ _ _ _ hfull hnone)

/-- Settles O10: an UNATTACHED port lets no row through its test, and a row that fails its check raises LANE_ERROR. -/
theorem unattachedAndBadFramesAreDiscarded : Obligations.UnattachedAndBadFramesAreDiscarded := by
  intro s hreset
  refine ⟨fun p => exec_unattachedConsole hreset, fun t => exec_unattachedTarget hreset, fun p bytes hbad => ?_, fun p mods l hl => ?_,
    fun t bytes hbad => ?_, fun t n hn => ?_, fun t l hl => ?_, fun t tag c args hargs => ?_⟩
  · exact (running_eq s _ hreset).trans (congrArg _ (if_pos (by rw [hbad]; rfl)))
  · exact exec_cKeys_badList p mods hreset (by rw [← Bool.not_eq_true, keyListOk_keys]; omega)
  · exact (running_eq s _ hreset).trans (congrArg _ (if_pos (by rw [hbad]; rfl)))
  · exact running_targetLaneError hreset (creditOk_eq_false hn)
  · exact running_targetLaneError hreset (decide_eq_false (by omega))
  · exact running_targetLaneError hreset (decide_eq_false (by rw [show Config.payloadMax - 2 = 60 from rfl]; omega))

end

section
/-! PROOFS. Inbound frames: what a lane makes of a sealed payload, kind by kind (R179, R180, O52). -/

namespace Sys2Proof.Machine

/-! ## From the envelope to the payload -/

theorem consoleLane_sealFrame {p : Port} {kind : Byte} {payload : List Byte} {i : Instr} (h : payload.length ≤ 62)
    (hi : consolePayload p kind payload = some i) : consoleLane p (sealFrame kind payload) = i := by
  rw [consoleLane, consoleCommand, openFrame_sealFrame kind h]
  dsimp only
  rw [hi, Option.getD_some]

theorem targetLane_sealFrame {t : Target} {kind : Byte} {payload : List Byte} {i : Instr} (h : payload.length ≤ 62)
    (hi : targetPayload t kind payload = some i) : targetLane t (sealFrame kind payload) = i := by
  rw [targetLane, targetCommand, openFrame_sealFrame kind h]
  dsimp only
  rw [hi, Option.getD_some]

theorem consoleLane_bad {p : Port} {bytes : List Byte} (h : (consoleCommand p bytes).isNone = true) :
    consoleLane p bytes = .badConsoleFrame p bytes := by
  rw [consoleLane, Option.isNone_iff_eq_none.1 h, Option.getD_none]

theorem targetLane_bad {t : Target} {bytes : List Byte} (h : (targetCommand t bytes).isNone = true) :
    targetLane t bytes = .badTargetFrame t bytes := by
  rw [targetLane, Option.isNone_iff_eq_none.1 h, Option.getD_none]

/-! ## The fields of a payload (R180) -/

theorem classOfByte_classByte (c : PortClass) : classOfByte (classByte c) = some c := by cases c <;> rfl

theorem modeOfByte_modeByte (m : Mode) : modeOfByte (modeByte m) = some m := by cases m <;> rfl

theorem powerOfByte_powerByte (v : PowerValue) : powerOfByte (powerByte v) = some v := by cases v <;> rfl

theorem word16_bytes (v : BitVec 16) : word16 (v.extractLsb' 8 8) (v.extractLsb' 0 8) = v :=
  (BitVec.extractLsb'_append_extractLsb'_eq_extractLsb' rfl).trans BitVec.extractLsb'_eq_self

/-! ## The payload of each row -/

theorem consolePayload_attach (p : Port) (c : PortClass) : consolePayload p 0x01 [classByte c] = some (.cAttach p c) :=
  congrArg (Option.map (Instr.cAttach p)) (classOfByte_classByte c)

/-- A list within the key cap has a count byte of its own, apart from the 255 of ROLLOVER. -/
theorem consolePayload_keys (p : Port) (mods : ModSet) {l : List Key} (h : l.length ≤ 12) :
    consolePayload p 0x02 (mods :: BitVec.ofNat 8 l.length :: l) = some (.cKeys p mods (.keys l)) := by
  have hcount : (BitVec.ofNat 8 l.length).toNat = l.length := by
    rw [BitVec.toNat_ofNat]
    omega
  have hne : BitVec.ofNat 8 l.length ≠ 255 := fun heq => by
    rw [heq] at hcount
    exact absurd (hcount.trans_le h) (by decide)
  show (if BitVec.ofNat 8 l.length = 255 then _ else _) = _
  rw [if_neg hne, hcount, if_pos ⟨h, rfl⟩]

theorem consolePayload_motion (p : Port) (dx dy : BitVec 16) (wheel buttons : Byte) :
    consolePayload p 0x03 (bytes16 dx ++ bytes16 dy ++ [wheel, buttons]) = some (.cMotion p dx dy wheel buttons) := by
  show some (Instr.cMotion p (word16 _ _) (word16 _ _) wheel buttons) = _
  rw [word16_bytes, word16_bytes]

theorem targetPayload_credit (t : Target) {n : Byte} (h : creditOk n = true) : targetPayload t 0x13 [n] = some (.pCredit t n) := if_pos h

theorem targetPayload_leds (t : Target) {l : Byte} (h : ledByteOk l = true) : targetPayload t 0x15 [l] = some (.pLeds t l) := if_pos h

end Sys2Proof.Machine

open Sys2Proof Sys2Proof.Machine

/-- Settles O52: row by row, the sealed payload opens and its fields are read back; a BAD_ row's bytes are no command because the row is
well formed. -/
theorem laneFramesAreReadBack : Obligations.LaneFramesAreReadBack := by
  intro i bytes hwf hframe
  cases i with
  | cAttach p c =>
    obtain rfl := Option.some.inj hframe
    exact consoleLane_sealFrame (Nat.le_of_ble_eq_true rfl) (consolePayload_attach p c)
  | cKeys p mods list =>
    cases list with
    | rollover =>
      obtain rfl := Option.some.inj hframe
      exact consoleLane_sealFrame (Nat.le_of_ble_eq_true rfl) rfl
    | keys l =>
      obtain rfl := Option.some.inj hframe
      have hl := keyListOk_keys.1 hwf
      exact consoleLane_sealFrame (by rw [List.length_cons, List.length_cons]; omega) (consolePayload_keys p mods hl)
  | cMotion p dx dy wheel buttons =>
    obtain rfl := Option.some.inj hframe
    exact consoleLane_sealFrame (Nat.le_of_ble_eq_true rfl) (consolePayload_motion p dx dy wheel buttons)
  | cDetach p =>
    obtain rfl := Option.some.inj hframe
    exact consoleLane_sealFrame (Nat.le_of_ble_eq_true rfl) rfl
  | badConsoleFrame p b =>
    obtain rfl := Option.some.inj hframe
    exact consoleLane_bad hwf
  | pAttach t m =>
    obtain rfl := Option.some.inj hframe
    exact targetLane_sealFrame (kind := 0x11) (Nat.le_of_ble_eq_true rfl) (congrArg (Option.map (Instr.pAttach t)) (modeOfByte_modeByte m))
  | pMode t m =>
    obtain rfl := Option.some.inj hframe
    exact targetLane_sealFrame (kind := 0x12) (Nat.le_of_ble_eq_true rfl) (congrArg (Option.map (Instr.pMode t)) (modeOfByte_modeByte m))
  | pCredit t n =>
    obtain rfl := Option.some.inj hframe
    exact targetLane_sealFrame (Nat.le_of_ble_eq_true rfl) (targetPayload_credit t hwf)
  | pPower t v =>
    obtain rfl := Option.some.inj hframe
    exact targetLane_sealFrame (kind := 0x14) (Nat.le_of_ble_eq_true rfl) (congrArg (Option.map (Instr.pPower t)) (powerOfByte_powerByte v))
  | pLeds t l =>
    obtain rfl := Option.some.inj hframe
    exact targetLane_sealFrame (Nat.le_of_ble_eq_true rfl) (targetPayload_leds t hwf)
  | pControl t tag c args =>
    obtain rfl := Option.some.inj hframe
    have hargs : args.length ≤ 60 := of_decide_eq_true hwf
    exact targetLane_sealFrame (by rw [List.length_cons, List.length_cons]; omega) rfl
  | pDetach t =>
    obtain rfl := Option.some.inj hframe
    exact targetLane_sealFrame (Nat.le_of_ble_eq_true rfl) rfl
  | badTargetFrame t b =>
    obtain rfl := Option.some.inj hframe
    exact targetLane_bad hwf
  | _ => nomatch hframe

end

section
/-! PROOFS. P_LEDS: the LED state set and shown (R38, R112, R114, R118, R121, O26). -/

namespace Sys2Proof.Machine

theorem exec_pLeds {t : Target} {l : Byte} {s : State} (hreset : s.resetAsserted = false) (hattached : s.targets[t].attached = true)
    (hl : l.toNat < 32) : exec (.pLeds t l) s = .next (s.reportLeds t (l.setWidth 5)) := by
  have hok : ledByteOk l = true := decide_eq_true hl
  have hexec : exec (.pLeds t l) s = running s (onAttached t (State.reportLeds t (l.setWidth 5))) := by
    show running s (fun s => if ledByteOk l then onAttached t (State.reportLeds t (l.setWidth 5)) s else s.targetLaneError t) = _
    rw [hok]
    rfl
  rw [hexec, running_onAttached hreset hattached]

/-- The timer runs already where it would be started, and not where it would be cleared (R114). -/
theorem TargetPort.EndsAs.stall_stays {n : Nat} {p q : TargetPort} (h : p.EndsAs n q) (hqueue : q.queue = p.queue)
    (hruns : p.stall.isSome = true → p.queue ≠ []) (hwaits : p.queue ≠ [] → p.credit = 0 → p.stall.isSome = true) :
    q.stall = p.stall := by
  rw [h.stall, hqueue]
  split
  · rename_i hempty
    exact (Option.not_isSome_iff_eq_none.1 fun hsome => hruns hsome hempty).symm
  · rename_i hqueued
    refine if_neg fun ⟨hcredit, hnone⟩ => ?_
    have := hwaits hqueued hcredit
    rw [hnone] at this
    cases this

/-- An event's end that finds nothing to append and the timer as it should be changes nothing (R112, R114, R118). -/
theorem TargetPort.EndsAs.eq_self {n : Nat} {p q : TargetPort} (h : p.EndsAs n q) (hhome : p.sync.phase ≠ .home)
    (happroach : p.sync.phase ≠ .approach) (hresync : p.resync = false) (hruns : p.stall.isSome = true → p.queue ≠ [])
    (hwaits : p.queue ≠ [] → p.credit = 0 → p.stall.isSome = true) : q = p := by
  obtain ⟨hqueue, hsync, hflag⟩ := h.settled hhome happroach hresync
  rw [h.rest, hqueue, hsync, hflag, h.stall_stays hqueue hruns hwaits, ← hresync]

/-- The port's event, ended, and then the C_LEDS that show it. -/
theorem State.reportLeds_endsAs (t : Target) (l : LedSet) (s : State) : ∃ q : TargetPort,
    ({ s.targets[t] with leds := l } : TargetPort).EndsAs s.desk.stallTime q ∧ s.reportLeds t l = { s with
      targets := upd s.targets t fun _ => q
      sent := s.sent ++ ((List.finRange 4).filter fun p => s.ports[p].attached && s.ports[p].cls = some .keyboard &&
        (s.consoles[p].pin).getD s.focus.target = t).map (fun p => .leds p l) } := by
  obtain ⟨q, hq, hends⟩ := s.portEnd_endsAs t fun p => { p with leds := l }
  have hleds : q.leds = l := (congrArg TargetPort.leds hends.rest :)
  refine ⟨q, hends, ?_⟩
  rw [State.reportLeds, hq, State.ledsOfTarget_eq, State.modTarget_port, hleds]
  rfl

end Sys2Proof.Machine

open Sys2Proof Sys2Proof.Machine

/-- Settles O26: the port's event ends as `TargetPort.EndsAs` says, and the C_LEDS carry the set just taken. -/
theorem ledStateIsSetAndShown : Obligations.LedStateIsSetAndShown := by
  intro t l s hreset hattached hl
  obtain ⟨q, hends, heq⟩ := s.reportLeds_endsAs t (l.setWidth 5)
  refine ⟨s.reportLeds t (l.setWidth 5), exec_pLeds hreset hattached hl, ?_⟩
  rw [heq]
  have hport : (upd s.targets t fun _ => q)[t] = q := upd_get ..
  refine ⟨rfl, fun u hu => upd_get_ne _ _ _ _ hu, ?_, ⟨?_, ?_, ?_⟩, rfl⟩
  · show (upd s.targets t fun _ => q)[t].leds = _
    rw [hport]
    exact (congrArg TargetPort.leds hends.rest :)
  · dsimp only
    rw [hport]
    have hleds : q.leds = l.setWidth 5 := (congrArg TargetPort.leds hends.rest :)
    rw [hleds]
    exact hends.rest
  · dsimp only
    rw [hport]
    exact hends.queue
  · intro hhome happroach hresync hruns hwaits
    exact upd_congr (v := s.targets) (i := t) (f := fun _ => q) (hends.eq_self hhome happroach hresync hruns hwaits)

end

section
/-! SUPPORT. One entry of the merge engine: whose turn it is, and what the entry leaves at its port (R30 to R35). -/

namespace Sys2Proof.Machine

/-! ## The port served next (R30) -/

/-- The rotation after a console port takes the ports after it in order. -/
theorem portRotation_succWrap (i : Port) : rotation (succWrap i) = (List.finRange 4).map fun k => i + 1 + k := by
  revert i
  decide

theorem State.nextPort_of_turn {s : State} {p : Port} (h : s.MergeTurn p) : s.nextPort = some p := by
  obtain ⟨hfifo, n, rfl, hempty⟩ := h
  have hserved : (!s.ports[s.mergeLast + 1 + n].fifo.isEmpty) = true := by
    rw [Bool.not_eq_true', List.isEmpty_eq_false_iff]
    exact hfifo
  rw [State.nextPort, portRotation_succWrap, List.find?_map]
  exact congrArg _ (find?_finRange_eq_some (i := n) hserved fun k hk => by
    rw [Function.comp_apply, hempty k hk]
    rfl)

theorem State.nextPort_of_empty {s : State} (h : ∀ p : Port, s.ports[p].fifo = []) : s.nextPort = none :=
  List.find?_eq_none.2 fun p _ => by
    rw [h p]
    nofun

/-- s with the entry gone from p's FIFO, and the rotation pointer at p (R30). -/
def State.entryGone (p : Port) (rest : List FifoEntry) (s : State) : State :=
  { s with mergeLast := p, ports := upd s.ports p fun q => { q with fifo := rest } }

theorem State.entryGone_port (p : Port) (rest : List FifoEntry) (s : State) : (s.entryGone p rest).ports[p] = { s.ports[p] with fifo := rest } :=
  upd_get ..

theorem State.entryGone_other {p q : Port} (rest : List FifoEntry) (s : State) (h : q ≠ p) : (s.entryGone p rest).ports[q] = s.ports[q] :=
  upd_get_ne _ _ _ _ h

theorem exec_mergeTakeEntry {s : State} {p : Port} {e : FifoEntry} {rest : List FifoEntry} (hreset : s.resetAsserted = false)
    (hturn : s.MergeTurn p) (hfifo : s.ports[p].fifo = e :: rest) :
    exec .mergeTakeEntry s = .next ((s.entryGone p rest).takeEntry p e) := by
  have htake : s.mergeTake = (s.entryGone p rest).takeEntry p e := by
    rw [State.mergeTake, State.nextPort_of_turn hturn]
    dsimp only
    rw [hfifo]
    rfl
  exact (running_eq s _ hreset).trans (congrArg _ htake)

/-! ## What an entry leaves at its port -/

/-- The ports agree in everything but their suppressed sets. -/
def ConsolePort.SameButSuppressed (c d : ConsolePort) : Prop :=
  d = { c with supKeys := d.supKeys, supMods := d.supMods, supButtons := d.supButtons }

/-- From s to t nothing changes but what the events of an entry of p may touch, and p itself ends as g says. -/
structure State.EntryOnly (p : Port) (g : ConsolePort → ConsolePort) (s t : State) : Prop where
  frame    : t = { s with
    ports := t.ports, detector := t.detector, keyStates := t.keyStates, focus := t.focus, glide := t.glide, targets := t.targets,
    windows := t.windows, notices := t.notices, sent := t.sent, desk := { s.desk with glideEnable := t.desk.glideEnable } }
  served   : (g s.ports[p]).SameButSuppressed t.ports[p]
  others   : ∀ q : Port, q ≠ p → s.ports[q].SameButSuppressed t.ports[q]
  settings : s.SameTargetSettings t
  windows  : ∀ w : Window, t.windows[w] = { s.windows[w] with shown := t.windows[w].shown }

/-- The events of the entry, and then p set as g says, whatever it says of suppressed sets. -/
theorem State.InputOnly.modPort {s t : State} (h : s.InputOnly t) (p : Port) {g : ConsolePort → ConsolePort}
    (hg : ∀ {c d : ConsolePort}, c.SameButSuppressed d → (g c).SameButSuppressed (g d)) : s.EntryOnly p g (t.modPort p g) := by
  refine ⟨?_, ?_, fun q hq => ?_, h.settings, h.windows⟩
  · rw [h.frame]
    rfl
  · rw [show (t.modPort p g).ports[p] = g t.ports[p] from upd_get ..]
    exact hg (h.console p)
  · rw [show (t.modPort p g).ports[q] = t.ports[q] from upd_get_ne _ _ _ _ hq]
    exact h.console q

theorem State.takeKeys_entryOnly (p : Port) (mods : ModSet) (list : List Key) (swallowed : Bool) (s : State) :
    s.EntryOnly p (fun q => { q with snapMods := mods, snapKeys := cleanKeys list, inChord := true }) (s.takeKeys p mods list swallowed) := by
  rw [State.takeKeys_eq]
  exact ((s.keysReleased_inputOnly ..).trans (State.keysPressed_inputOnly ..)).modPort p fun {c d} h => by
    rw [ConsolePort.SameButSuppressed] at h
    rw [h]
    rfl

theorem State.takeMotion_entryOnly (p : Port) (dx dy wheel : Int) (b : ButtonSet) (swallowed : Bool) (s : State) :
    s.EntryOnly p (fun q => { q with held := b }) (s.takeMotion p dx dy wheel b swallowed) := by
  have h := s.takeMotion_inputOnly p dx dy wheel b swallowed
  refine ⟨h.frame, ?_, fun q hq => ?_, h.settings, h.windows⟩
  · have hport := h.console p
    rw [State.setHeld_self] at hport
    exact hport
  · have hport := h.console q
    rw [State.setHeld_port, if_neg hq] at hport
    exact hport

/-- A release-all entry: the held set is given up with the rest of the snapshot. -/
theorem State.takeReleaseAll_entryOnly (p : Port) (s : State) : s.EntryOnly p ConsolePort.emptied (s.takeReleaseAll p) := by
  have hreleased := ((s.snapshotReleased_inputOnly p).setHeld p 0).trans (State.handButtonReleases_inputOnly p 0 s.ports[p].held _)
  have h := hreleased.modPort p (g := ConsolePort.emptied) fun {c d} h => by
    rw [ConsolePort.SameButSuppressed] at h
    rw [h]
    rfl
  have hempty : s.takeReleaseAll p =
      (((s.snapshotReleased p).handButtonReleases p 0 s.ports[p].held).setHeld p 0).modPort p ConsolePort.emptied := by
    rw [State.takeReleaseAll_eq, State.setHeld, State.modPort, State.modPort, State.modPort, upd_upd]
    rfl
  rw [hempty]
  refine ⟨h.frame, ?_, fun q hq => ?_, h.settings, h.windows⟩
  · have hport := h.served
    rw [State.setHeld_self] at hport
    exact hport
  · have hport := h.others q hq
    rw [State.setHeld_port, if_neg hq] at hport
    exact hport

/-! ## The events handed on, by the port's pin (R32) -/

/-- A fold by f is a fold by g where the two agree as long as P holds, and f keeps P. -/
theorem foldl_eq_along {σ α : Type} {P : σ → Prop} {f g : σ → α → σ} (heq : ∀ x a, P x → f x a = g x a)
    (hkeep : ∀ x a, P x → P (f x a))
    (l : List α) {x : σ} (hx : P x) : l.foldl f x = l.foldl g x := by
  induction l generalizing x with
  | nil => rfl
  | cons a l ih => rw [List.foldl_cons, List.foldl_cons, ← heq x a hx, ih (hkeep x a hx)]

theorem State.InputOnly.pin {s t : State} (h : s.InputOnly t) (p : Port) : t.pin p = s.pin p := by
  have hconsoles : t.consoles = s.consoles := (congrArg State.consoles h.frame :)
  rw [State.pin, hconsoles]
  rfl

/-- A release handed on from a port of the given pin. -/
def State.releaseFrom (p : Port) (pin : Option Target) (x : State) (i : KeyItem) : State :=
  match pin with
  | some _ => x.keyRelease p i
  | none => x.detectRelease p i

/-- A press handed on from a port of the given pin; the flag says that a chord has fired in the entry (R67). -/
def State.pressFrom (p : Port) (pin : Option Target) (mods : ModSet) (a : State × Bool) (i : KeyItem) : State × Bool :=
  match pin with
  | some u => (a.1.keyPress p u i, a.2)
  | none =>
    if a.2 && i.isMod then ({ a.1 with ports := upd a.1.ports p (ConsolePort.suppress i.item) }, true)
    else
      let r := a.1.detectPress p i (a.1.chordMods p mods)
      (r.1, a.2 || r.2)

theorem State.handRelease_of_pin {s : State} {p : Port} {pin : Option Target} (h : s.pin p = pin) (i : KeyItem) :
    s.handRelease p i = s.releaseFrom p pin i := by
  rw [State.handRelease, h]
  cases pin <;> rfl

theorem State.handOnPress_of_pin {a : State × Bool} {p : Port} {pin : Option Target} (h : a.1.pin p = pin) (mods : ModSet) (i : KeyItem) :
    State.handOnPress p mods a i = State.pressFrom p pin mods a i := by
  rw [State.handOnPress, h]
  cases pin with
  | some u => rfl
  | none =>
    unfold State.pressFrom
    dsimp only
    split
    · rename_i hfired
      rw [(Bool.and_eq_true_iff.1 hfired).1]
      rfl
    · rfl

theorem State.foldl_handRelease {s : State} {p : Port} {pin : Option Target} (h : s.pin p = pin) (l : List KeyItem) :
    l.foldl (State.handRelease p) s = l.foldl (State.releaseFrom p pin) s :=
  foldl_eq_along (P := fun x => x.pin p = pin) (fun _ i hx => State.handRelease_of_pin hx i)
    (fun x i hx => ((State.handRelease_inputOnly p x i).pin p).trans hx) l h

theorem State.foldl_handOnPress {a : State × Bool} {p : Port} {pin : Option Target} (h : a.1.pin p = pin) (mods : ModSet) (l : List KeyItem) :
    l.foldl (State.handOnPress p mods) a = l.foldl (State.pressFrom p pin mods) a :=
  foldl_eq_along (P := fun x : State × Bool => x.1.pin p = pin) (fun _ i hx => State.handOnPress_of_pin hx mods i)
    (fun x i hx => ((State.handOnPress_inputOnly p mods x i).pin p).trans hx) l h

/-- The releases of a C_KEYS entry by the port's pin (R31, R32). -/
theorem State.keysReleased_from {s : State} {p : Port} {pin : Option Target} (h : s.pin p = pin) (mods : ModSet) (clean : List Key) :
    s.keysReleased p mods clean = (s.ports[p].releasesFor mods clean).foldl (State.releaseFrom p pin) s := State.foldl_handRelease h _

/-- The presses of a C_KEYS entry by the port's pin, or suppressed (R31, R32, R35). -/
theorem State.keysPressed_from {x : State} {p : Port} {pin : Option Target} (h : x.pin p = pin) (mods : ModSet) (clean : List Key)
    (swallowed : Bool) (s : State) : s.keysPressed p mods clean swallowed x =
      if swallowed then x.modPort p (ConsolePort.suppressAll (s.ports[p].pressedKeys clean) (minus mods s.ports[p].snapMods) 0)
      else ((s.ports[p].pressesFor mods clean).foldl (State.pressFrom p pin mods) (x, false)).1 := by
  rw [State.keysPressed, State.foldl_handOnPress (a := (x, false)) h]

/-- The items of a snapshot released by the port's pin (R34). -/
theorem State.snapshotReleased_from {s : State} {p : Port} {pin : Option Target} (h : s.pin p = pin) : s.snapshotReleased p =
    ((members s.ports[p].snapMods).map KeyItem.mod ++ s.ports[p].snapKeys.map KeyItem.key).foldl (State.releaseFrom p pin) s :=
  State.foldl_handRelease h _

end Sys2Proof.Machine
end

section
/-! PROOFS. MERGE_TAKE_ENTRY: rotation, frame and the events handed on (R30 to R35, O12). -/

namespace Sys2Proof.Machine

theorem mem_cleanKeys {k : Key} {list : List Key} : k ∈ cleanKeys list ↔ k ∈ list ∧ k ≠ 0 ∧ k ≠ 255 := by
  rw [cleanKeys, (firstAppearances_spec _ []).2]
  simp

/-- From the state with the entry gone, what is unchanged is unchanged from s. -/
theorem State.EntryOnly.of_gone {p : Port} {rest : List FifoEntry} {g : ConsolePort → ConsolePort} {s t : State}
    (h : (s.entryGone p rest).EntryOnly p g t) (hg : ∀ c, (g c).fifo = c.fifo ∧ (g c).attached = c.attached ∧ (g c).cls = c.cls) :
    t = { s with mergeLast := p, ports := t.ports, detector := t.detector, keyStates := t.keyStates, focus := t.focus,
                 glide := t.glide, targets := t.targets, windows := t.windows, notices := t.notices, sent := t.sent,
                 desk := { s.desk with glideEnable := t.desk.glideEnable } } ∧
      s.SameTargetSettings t ∧ (∀ w : Window, t.windows[w] = { s.windows[w] with shown := t.windows[w].shown }) ∧
      t.ports[p].fifo = rest ∧
      (∀ q : Port, t.ports[q].attached = s.ports[q].attached ∧ t.ports[q].cls = s.ports[q].cls) ∧
      (∀ q : Port, q ≠ p → t.ports[q].fifo = s.ports[q].fifo ∧ t.ports[q].snapMods = s.ports[q].snapMods ∧
        t.ports[q].snapKeys = s.ports[q].snapKeys ∧ t.ports[q].held = s.ports[q].held ∧ t.ports[q].inChord = s.ports[q].inChord) := by
  obtain ⟨hframe, hserved, hothers, hsettings, hwindows⟩ := h
  rw [State.entryGone_port] at hserved
  obtain ⟨hfifo, hattached, hcls⟩ := hg { s.ports[p] with fifo := rest }
  have hother : ∀ q, q ≠ p → s.ports[q].SameButSuppressed t.ports[q] := fun q hq => s.entryGone_other rest hq ▸ hothers q hq
  refine ⟨hframe, hsettings, hwindows, ?_, fun q => ?_, fun q hq => ?_⟩
  · exact (congrArg ConsolePort.fifo hserved :).trans hfifo
  · by_cases hq : q = p
    · subst hq
      exact ⟨(congrArg ConsolePort.attached hserved :).trans hattached, (congrArg ConsolePort.cls hserved :).trans hcls⟩
    · have hsame := hother q hq
      exact ⟨(congrArg ConsolePort.attached hsame :), (congrArg ConsolePort.cls hsame :)⟩
  · have hsame := hother q hq
    exact ⟨(congrArg ConsolePort.fifo hsame :), (congrArg ConsolePort.snapMods hsame :), (congrArg ConsolePort.snapKeys hsame :),
      (congrArg ConsolePort.held hsame :), (congrArg ConsolePort.inChord hsame :)⟩

/-- What an entry leaves at its port, FIFO and suppressed set aside, from its port as the entry found it. -/
theorem State.EntryOnly.served_gone {p : Port} {rest : List FifoEntry} {g : ConsolePort → ConsolePort} {s t : State}
    (h : (s.entryGone p rest).EntryOnly p g t) : (g { s.ports[p] with fifo := rest }).SameButSuppressed t.ports[p] := by
  have hserved := h.served
  rw [State.entryGone_port] at hserved
  exact hserved

end Sys2Proof.Machine

open Sys2Proof Sys2Proof.Machine

/-- Settles O12: the frame of each entry by `State.EntryOnly`; its events by the port's pin, which no event changes. -/
theorem mergeTakesTheOldestEntryOfTheNextPort : Obligations.MergeTakesTheOldestEntryOfTheNextPort := by
  refine ⟨fun s p e rest hreset hturn hfifo => ?_, fun s p e rest hreset hturn hfifo => ?_, fun c keys mods buttons i => ⟨rfl, ?_⟩,
    fun s hreset hempty => ?_⟩
  · refine ⟨_, exec_mergeTakeEntry hreset hturn hfifo, ?_⟩
    cases e with
    | keys mods list mark =>
      have h := (s.entryGone p rest).takeKeys_entryOnly p mods list mark
      have hserved := h.served_gone
      obtain ⟨hframe, hsettings, hwindows, hrest, hports, hothers⟩ := h.of_gone fun _ => ⟨rfl, rfl, rfl⟩
      have hclean : (State.takeEntry p (.keys mods list mark) (s.entryGone p rest)).ports[p].snapKeys = cleanKeys list :=
        (congrArg ConsolePort.snapKeys hserved :)
      refine ⟨hframe, hsettings, hwindows, hrest, hports, hothers, (congrArg ConsolePort.snapMods hserved :),
        (congrArg ConsolePort.held hserved :), (congrArg ConsolePort.inChord hserved :), ?_, fun k => ?_⟩
      · exact hclean ▸ mem_cleanKeys_nodup list
      · exact hclean ▸ mem_cleanKeys
    | motion dx dy wheel buttons mark =>
      have h := (s.entryGone p rest).takeMotion_entryOnly p dx dy wheel buttons mark
      have hserved := h.served_gone
      obtain ⟨hframe, hsettings, hwindows, hrest, hports, hothers⟩ := h.of_gone fun _ => ⟨rfl, rfl, rfl⟩
      exact ⟨hframe, hsettings, hwindows, hrest, hports, hothers, (congrArg ConsolePort.held hserved :),
        (congrArg ConsolePort.snapMods hserved :), (congrArg ConsolePort.snapKeys hserved :), (congrArg ConsolePort.inChord hserved :)⟩
    | releaseAll =>
      have h := (s.entryGone p rest).takeReleaseAll_entryOnly p
      have hserved := h.served_gone
      obtain ⟨hframe, hsettings, hwindows, hrest, hports, hothers⟩ := h.of_gone fun _ => ⟨rfl, rfl, rfl⟩
      have hport : (State.takeEntry p .releaseAll (s.entryGone p rest)).ports[p] = ConsolePort.emptied _ := upd_get ..
      exact ⟨hframe, hsettings, hwindows, hrest, hports, hothers, (congrArg ConsolePort.snapMods hserved :),
        (congrArg ConsolePort.snapKeys hserved :), (congrArg ConsolePort.held hserved :), (congrArg ConsolePort.supKeys hport :),
        (congrArg ConsolePort.supMods hport :), (congrArg ConsolePort.supButtons hport :), (congrArg ConsolePort.inChord hserved :)⟩
  · have hpin : (s.entryGone p rest).pin p = s.consoles[p].pin := rfl
    have hport := s.entryGone_port p rest
    intro s1 port release
    refine (exec_mergeTakeEntry hreset hturn hfifo).trans (congrArg _ ?_)
    cases e with
    | keys mods list mark =>
      have hreleased := (((s.entryGone p rest).keysReleased_inputOnly p mods (cleanKeys list)).pin p).trans hpin
      show (s.entryGone p rest).takeKeys p mods list mark = _
      rw [State.takeKeys_eq, State.keysPressed_from hreleased, State.keysReleased_from hpin, cleanKeys_eq, hport]
      rfl
    | motion dx dy wheel buttons mark =>
      show (s.entryGone p rest).takeMotion p dx dy wheel buttons mark = _
      rw [State.takeMotion, hport]
      rfl
    | releaseAll =>
      show (s.entryGone p rest).takeReleaseAll p = _
      rw [State.takeReleaseAll_eq, State.snapshotReleased_from hpin, hport]
      rfl
  · rw [ConsolePort.suppressAll_suppressed]
    cases i <;> rfl
  · have hstays : s.mergeTake = s := by rw [State.mergeTake, State.nextPort_of_empty hempty]
    exact (running_eq s _ hreset).trans (congrArg _ hstays)

end

section
/-! SUPPORT. What is done at one target leaves the others, and what is handed on from a pinned port stays with its target (R32, R47, R100). -/

namespace Sys2Proof.Machine

/-! ## Reports and wakes of one target -/

theorem State.SameButTarget.refl (t : Target) (s : State) : s.SameButTarget t s := ⟨fun _ _ => rfl, rfl⟩

theorem State.SameButTarget.trans {t : Target} {s x y : State} (h : s.SameButTarget t x) (k : x.SameButTarget t y) : s.SameButTarget t y := by
  obtain ⟨hothers, hframe⟩ := h
  obtain ⟨kothers, kframe⟩ := k
  refine ⟨fun u hu => (kothers u hu).trans (hothers u hu), ?_⟩
  rw [kframe, hframe]

theorem ite_sameButTarget {t : Target} {c : Prop} [Decidable c] {s x y : State} (hx : s.SameButTarget t x) (hy : s.SameButTarget t y) :
    s.SameButTarget t (if c then x else y) := by
  split
  · exact hx
  · exact hy

theorem State.modTarget_sameBut (t : Target) (f : TargetPort → TargetPort) (s : State) : s.SameButTarget t (s.modTarget t f) :=
  ⟨fun _ hu => upd_get_ne _ _ _ _ hu, rfl⟩

theorem State.raise_sameBut (t : Target) (k : NoticeKind) (i : Fin 16) (s : State) : s.SameButTarget t (s.raise k i) := ⟨fun _ _ => rfl, rfl⟩

theorem State.offerReport_sameBut (t : Target) (r : Report) (s : State) : s.SameButTarget t (s.offerReport t r) := by
  unfold State.offerReport
  split
  · exact ((s.modTarget_sameBut t _).trans (ite_sameButTarget (State.raise_sameBut ..) (.refl t _))).trans (State.modTarget_sameBut t _ _)
  · exact s.modTarget_sameBut t _
  · exact .refl t s
  · exact .refl t s

theorem State.announceView_sameBut (v : ModSet × List Key) (t : Target) (s : State) : s.SameButTarget t (s.announceView v t) :=
  ite_sameButTarget (.refl t s) (s.offerReport_sameBut t _)

theorem State.buttonReport_sameBut (t : Target) (s : State) : s.SameButTarget t (s.buttonReport t) := s.offerReport_sameBut t _

theorem State.wakeRequest_sameBut (t : Target) (s : State) : s.SameButTarget t (s.wakeRequest t) := by
  unfold State.wakeRequest
  split
  · have hsent : s.SameButTarget t (s.sendTo t (.wake t)) := ⟨fun u _ => by rw [State.sendTo_targets], s.sendTo_delivers t _⟩
    exact hsent.trans (State.modTarget_sameBut t _ _)
  · exact .refl t s
  · exact .refl t s
  · exact .refl t s

theorem State.requestSync_sameBut (t : Target) (s : State) : s.SameButTarget t (s.requestSync t) :=
  (s.modTarget_sameBut t _).trans (State.modTarget_sameBut t _ _)

theorem State.pointerReport_sameBut (t : Target) (q : Nat × Nat) (wheel : Int) (changed entry : Bool) (s : State) :
    s.SameButTarget t (s.pointerReport t q wheel changed entry) := by
  have hlast : s.SameButTarget t (s.setLast t q) := s.modTarget_sameBut t _
  have hoffered : ∀ r, s.SameButTarget t ((s.setLast t q).offerReport t r) := fun r => hlast.trans (State.offerReport_sameBut t r _)
  have hrequested : s.SameButTarget t ((s.setLast t q).requestSync t) := hlast.trans (State.requestSync_sameBut t _)
  unfold State.pointerReport
  dsimp only
  split
  · split
    · exact ite_sameButTarget (hrequested.trans (State.buttonReport_sameBut t _)) hrequested
    · exact ite_sameButTarget (hoffered _) (ite_sameButTarget (hoffered _) hlast)
  · exact hoffered _

/-! ## Events of a pinned port -/

/-- What events of port p pinned to u may touch: the account, queues, notices and the port's fractions; of a target other than u that holds
nothing of p, neither table nor port. -/
structure State.PinnedOnly (p : Port) (u : Target) (s t : State) : Prop where
  frame  : t = { s with
    ports := t.ports, keyStates := t.keyStates, targets := t.targets, notices := t.notices, sent := t.sent
    glide := { s.glide with fractions := t.glide.fractions } }
  others : ∀ v : Target, v ≠ u → (∀ i : Item, s.keyStates[v].holds p i = false) →
    t.keyStates[v] = s.keyStates[v] ∧ t.targets[v] = s.targets[v]

section
variable {p : Port} {u : Target}

theorem State.PinnedOnly.refl (s : State) : s.PinnedOnly p u s := ⟨rfl, fun _ _ _ => ⟨rfl, rfl⟩⟩

theorem State.PinnedOnly.trans {s t x : State} (h : s.PinnedOnly p u t) (k : t.PinnedOnly p u x) : s.PinnedOnly p u x := by
  refine ⟨?_, fun v hv hfree => ?_⟩
  · rw [k.frame, h.frame]
  · obtain ⟨hkeys, htarget⟩ := h.others v hv hfree
    obtain ⟨kkeys, ktarget⟩ := k.others v hv (by rwa [hkeys])
    exact ⟨kkeys.trans hkeys, ktarget.trans htarget⟩

theorem foldl_pinnedOnly {α : Type} {f : State → α → State} (h : ∀ (s : State) (a : α), s.PinnedOnly p u (f s a)) (l : List α)
    (s : State) :
    s.PinnedOnly p u (l.foldl f s) := by
  induction l generalizing s with
  | nil => exact .refl s
  | cons a l ih => exact (h s a).trans (ih _)

theorem State.PinnedOnly.of_target {s t : State} (h : s.SameButTarget u t) : s.PinnedOnly p u t := by
  obtain ⟨hothers, hframe⟩ := h
  have hkeys : t.keyStates = s.keyStates := (congrArg State.keyStates hframe :)
  refine ⟨?_, fun v hv _ => ⟨by rw [hkeys], hothers v hv⟩⟩
  rw [hframe]

theorem State.PinnedOnly.of_ports (q : Vector ConsolePort 4) (s : State) : s.PinnedOnly p u { s with ports := q } :=
  ⟨rfl, fun _ _ _ => ⟨rfl, rfl⟩⟩

theorem State.PinnedOnly.of_fractions (f : Vector (Nat × Nat) 4) (s : State) :
    s.PinnedOnly p u { s with glide := { s.glide with fractions := f } } := ⟨rfl, fun _ _ _ => ⟨rfl, rfl⟩⟩

theorem State.PinnedOnly.of_table (f : KeyState → KeyState) (s : State) : s.PinnedOnly p u (s.modKeys u f) :=
  ⟨rfl, fun _ hv _ => ⟨upd_get_ne _ _ _ _ hv, rfl⟩⟩

/-- What is done at a target that holds something of p, its table aside. -/
theorem State.PinnedOnly.of_holder {w : Target} {i : Item} {s t : State} (hw : s.keyStates[w].holds p i = true) (f : KeyState → KeyState)
    (h : (s.modKeys w f).SameButTarget w t) : s.PinnedOnly p u t := by
  obtain ⟨hothers, hframe⟩ := h
  have hkeys : t.keyStates = upd s.keyStates w f := (congrArg State.keyStates hframe :)
  refine ⟨?_, fun v _ hfree => ?_⟩
  · rw [hframe]
    rfl
  · have hne : v ≠ w := fun e => by
      rw [e] at hfree
      rw [hfree i] at hw
      cases hw
    exact ⟨by rw [hkeys, upd_get_ne _ _ _ _ hne], hothers v hne⟩

theorem State.bookPress_pinnedOnly (i : Item) (s : State) : s.PinnedOnly p u (s.bookPress p u i) := by
  have haccepted : s.PinnedOnly p u (s.acceptPress u).1 := by
    rw [State.acceptPress_eq, State.wokenByPress]
    exact .of_target (ite_sameButTarget (s.wakeRequest_sameBut u) (.refl u s))
  unfold State.bookPress
  dsimp only
  split
  · split
    · exact haccepted.trans (.of_table ..)
    · exact haccepted.trans (.of_ports ..)
  · exact haccepted.trans (.of_ports ..)

theorem State.keyPress_pinnedOnly (i : KeyItem) (s : State) : s.PinnedOnly p u (s.keyPress p u i) :=
  (s.bookPress_pinnedOnly i.item).trans (.of_target (State.announceView_sameBut ..))

theorem State.keyRelease_pinnedOnly (i : KeyItem) (s : State) : s.PinnedOnly p u (s.keyRelease p i) := by
  unfold State.keyRelease
  split
  · exact .of_ports ..
  · split
    · exact .of_holder (State.holder_eq_some ‹_›) _ (State.announceView_sameBut ..)
    · exact .refl s

theorem State.buttonRelease_pinnedOnly (b : Button) (s : State) : s.PinnedOnly p u (s.buttonRelease p b) := by
  unfold State.buttonRelease
  split
  · exact .of_ports ..
  · split
    · exact .of_holder (State.holder_eq_some ‹_›) _ (.refl _ _)
    · exact .refl s

theorem State.accountButtons_pinnedOnly {e : PointerEvent} (he : e.port = p) (s : State) : s.PinnedOnly p u (s.accountButtons e (some u)) := by
  subst he
  have hheld : s.PinnedOnly e.port u (s.setHeld e.port e.buttons) := .of_ports ..
  exact (hheld.trans (foldl_pinnedOnly (fun x b => x.buttonRelease_pinnedOnly b) ..)).trans
    (foldl_pinnedOnly (fun x b => x.bookPress_pinnedOnly (.button b)) ..)

/-- No target is sent a button report whose table the event has left alone (R43). -/
theorem State.buttonReports_pinnedOnly {s x : State} (h : s.PinnedOnly p u x) : s.PinnedOnly p u (State.buttonReports s u x) := by
  have hdelivers := State.buttonReports_delivers s u x
  have hreports := State.buttonReports_reports s u x
  refine ⟨?_, fun v hv hfree => ?_⟩
  · rw [hdelivers, h.frame]
  · obtain ⟨hkeys, htarget⟩ := h.others v hv hfree
    refine ⟨by rw [hdelivers.keyStates, hkeys], ?_⟩
    rw [hreports.targets, if_neg fun hmem => (mem_changedTargets.1 hmem).2 (by rw [State.buttonSet, hkeys, State.buttonSet]), htarget]

theorem State.pinnedMotion_pinnedOnly {e : PointerEvent} (he : e.port = p) (s : State) : s.PinnedOnly p u (s.pinnedMotion e u) := by
  unfold State.pinnedMotion State.buttonsAndReport
  exact (State.PinnedOnly.of_fractions ..).trans
    ((State.buttonReports_pinnedOnly (State.accountButtons_pinnedOnly he _)).trans (.of_target (State.pointerReport_sameBut ..)))

theorem State.pointerEvent_pinnedOnly {e : PointerEvent} {s : State} (he : e.port = p) (h : s.pin p = some u) :
    s.PinnedOnly p u (s.pointerEvent e) := by
  rw [State.pointerEvent, he, h]
  exact s.pinnedMotion_pinnedOnly he

theorem State.PinnedOnly.pin {s t : State} (h : s.PinnedOnly p u t) (q : Port) : t.pin q = s.pin q := by
  have hconsoles : t.consoles = s.consoles := (congrArg State.consoles h.frame :)
  rw [State.pin, hconsoles]
  rfl

/-! ## Entries of a pinned port -/

theorem State.keysReleased_pinnedOnly {s : State} (h : s.pin p = some u) (mods : ModSet) (clean : List Key) :
    s.PinnedOnly p u (s.keysReleased p mods clean) := by
  rw [State.keysReleased_from h]
  exact foldl_pinnedOnly (fun x i => x.keyRelease_pinnedOnly i) _ s

theorem State.foldl_pressFrom_pinnedOnly (mods : ModSet) (l : List KeyItem) (a : State × Bool) :
    a.1.PinnedOnly p u (l.foldl (State.pressFrom p (some u) mods) a).1 := by
  induction l generalizing a with
  | nil => exact .refl a.1
  | cons i l ih => exact (a.1.keyPress_pinnedOnly i).trans (ih (a.1.keyPress p u i, a.2))

theorem State.keysPressed_pinnedOnly {x : State} (h : x.pin p = some u) (mods : ModSet) (clean : List Key) (swallowed : Bool) (s : State) :
    x.PinnedOnly p u (s.keysPressed p mods clean swallowed x) := by
  rw [State.keysPressed_from h]
  split
  · exact .of_ports ..
  · exact State.foldl_pressFrom_pinnedOnly mods _ (x, false)

theorem State.handButtonReleases_pinnedOnly {s : State} (h : s.pin p = some u) (b releases : ButtonSet) :
    s.PinnedOnly p u (s.handButtonReleases p b releases) := by
  unfold State.handButtonReleases
  split
  · exact .refl s
  · exact State.pointerEvent_pinnedOnly rfl h

theorem State.takeMotion_pinnedOnly {s : State} (h : s.pin p = some u) (dx dy wheel : Int) (b : ButtonSet) (swallowed : Bool) :
    s.PinnedOnly p u (s.takeMotion p dx dy wheel b swallowed) := by
  have htaken : s.PinnedOnly p u (if swallowed then (s.modPort p (ConsolePort.suppressAll [] 0 (minus b s.ports[p].held))).handButtonReleases p b
      (minus s.ports[p].held b) else s.pointerEvent ⟨p, dx, dy, wheel, b, minus s.ports[p].held b, minus b s.ports[p].held⟩) := by
    split
    · have hpressed : s.PinnedOnly p u (s.modPort p (ConsolePort.suppressAll [] 0 (minus b s.ports[p].held))) := .of_ports ..
      exact hpressed.trans (State.handButtonReleases_pinnedOnly ((hpressed.pin p).trans h) ..)
    · exact State.pointerEvent_pinnedOnly rfl h
  exact htaken.trans (.of_ports ..)

theorem State.takeEntry_pinnedOnly {s : State} (h : s.pin p = some u) (e : FifoEntry) : s.PinnedOnly p u (s.takeEntry p e) := by
  cases e with
  | keys mods list mark =>
    have hreleased := State.keysReleased_pinnedOnly h mods (cleanKeys list)
    have hpressed := State.keysPressed_pinnedOnly ((hreleased.pin p).trans h) mods (cleanKeys list) mark s
    exact (hreleased.trans hpressed).trans (.of_ports ..)
  | motion dx dy wheel b mark => exact State.takeMotion_pinnedOnly h ..
  | releaseAll =>
    have hreleased : s.PinnedOnly p u (s.snapshotReleased p) := by
      rw [State.snapshotReleased_from h]
      exact foldl_pinnedOnly (fun x i => x.keyRelease_pinnedOnly i) _ s
    exact (hreleased.trans (State.handButtonReleases_pinnedOnly ((hreleased.pin p).trans h) ..)).trans (.of_ports ..)

end

end Sys2Proof.Machine
end

section
/-! PROOFS. Input of a pinned port (R32, R82, R83, R100, O13). -/

open Sys2Proof Sys2Proof.Machine

/-- Settles O13: an entry of a pinned port by `State.PinnedOnly`; its pointer event by the clamped point and stages 4 and 5. -/
theorem pinnedInputTouchesNeitherFocusNorPointer : Obligations.PinnedInputTouchesNeitherFocusNorPointer := by
  refine ⟨fun s p u hreset hturn hpin => ?_, fun s e u hpin => ?_⟩
  · obtain ⟨e, rest, hfifo⟩ := List.exists_cons_of_ne_nil hturn.1
    obtain ⟨hframe, hothers⟩ := State.takeEntry_pinnedOnly (s := s.entryGone p rest) hpin e
    have hglide := (congrArg State.glide hframe :)
    exact ⟨_, exec_mergeTakeEntry hreset hturn hfifo, (congrArg State.detector hframe :), (congrArg State.focus hframe :),
      (congrArg State.windows hframe :), (congrArg Glide.px hglide :), (congrArg Glide.py hglide :), (congrArg Glide.pressure hglide :),
      (congrArg Glide.detached hglide :), hothers⟩
  · intro gain d old x y t moved booked
    have hstep := s.scaledStep_eq e.port e.dx e.dy
    let s1 : State := { s with glide := { s.glide with
      fractions := upd s.glide.fractions e.port fun _ => (x.toNat % 16, y.toNat % 16) } }
    have hpinned : t = s1.buttonsAndReport e (some u) u (some (x.toNat / 16, y.toNat / 16)) false := by
      show s.pointerEvent e = _
      rw [State.pointerEvent, show s.pin e.port = some u from hpin]
      dsimp only
      unfold State.pinnedMotion
      simp only [hstep, clampDesktop_eq]
      rfl
    have hglide : t.glide = s1.glide := by
      rw [hpinned]
      exact congrArg Prod.snd (State.buttonsAndReport_pointing ..)
    have hmoved : moved = s1 := by
      show ({ s with glide := { s.glide with fractions := t.glide.fractions } } : State) = s1
      rw [hglide]
    refine ⟨by rw [hmoved, hglide], ?_, fun q hq => ?_, ?_⟩
    · rw [hglide]
      exact upd_get ..
    · rw [hglide]
      exact upd_get_ne _ _ _ _ hq
    · rw [hpinned]
      show _ = (State.buttonReports s u (moved.accountButtons e (some u))).pointerReport u _ _
        ((moved.accountButtons e (some u)).buttonSet u != _) _
      rw [hmoved]
      rfl

end

section
/-! SUPPORT. The steps of a focus switch, one after another, in the terms of the state before it (R38, R52, R53). -/

namespace Sys2Proof.Machine

/-! ## The LEDs of the ports that follow focus (R37, R38) -/

/-- C_LEDS to the ports that follow focus, all with the LED state of the focus target. -/
theorem State.ledsToFollowers_eq (s : State) : s.ledsToFollowers = { s with
    sent := s.sent ++ ((List.finRange 4).filter fun q => s.ports[q].attached && s.ports[q].cls = some .keyboard &&
      (s.consoles[q].pin).isNone).map (fun q => .leds q s.targets[s.focus.target].leds) } := by
  have hframes : ∀ q ∈ (List.finRange 4).filter fun q => s.showsLeds q && (s.pin q).isNone,
      s.ledFrame q = .leds q s.targets[s.focus.target].leds := by
    intro q hq
    have hnone := (Bool.and_eq_true_iff.1 (List.mem_filter.1 hq).2).2
    simp only [State.ledFrame, State.ledTarget, Option.isNone_iff_eq_none.1 hnone, Option.getD_none]
  rw [State.ledsToFollowers, State.sendLeds, List.map_congr_left hframes]
  rfl

/-! ## Power states under reports -/

theorem State.offerReport_power (t u : Target) (r : Report) (s : State) : (s.offerReport t r).targets[u].power = s.targets[u].power := by
  by_cases hu : u = t
  · subst hu
    by_cases hp : s.targets[u].power = .suspended
    · rw [State.offerReport, hp]
      exact hp
    · obtain ⟨-, -, -, -, -, hpower⟩ := (s.offerReport_focusOnly u r).2.2 u
      exact hpower.resolve_right fun h => hp h.1
  · rw [(s.offerReport_sameBut t r).1 u hu]

theorem State.announceView_power (v : ModSet × List Key) (t u : Target) (s : State) :
    (s.announceView v t).targets[u].power = s.targets[u].power := by
  unfold State.announceView
  split
  · rfl
  · exact State.offerReport_power ..

/-! ## Step 1: the following ports leave a (R52) -/

/-- s with what the following ports hold at a gone from a's table and button record. -/
def State.followersGone (a : Target) (s : State) : State := s.modKeys a (KeyState.dropPorts s.following)

theorem State.leave_eq (a : Target) (s : State) : s.leave a =
    if (s.followersGone a).buttonSet a = s.buttonSet a then (s.followersGone a).announceView (s.view a) a
    else ((s.followersGone a).announceView (s.view a) a).buttonReport a := by
  have hbuttons : ((s.followersGone a).announceView (s.view a) a).buttonSet a = (s.followersGone a).buttonSet a := by
    rw [State.buttonSet, State.announceView_keyStates, State.buttonSet]
  rw [← hbuttons]
  rfl

theorem State.leave_sameBut (a : Target) (s : State) : (s.followersGone a).SameButTarget a (s.leave a) := by
  rw [State.leave_eq]
  exact ite_sameButTarget (State.announceView_sameBut ..)
    (.trans (State.announceView_sameBut ..) (State.buttonReport_sameBut ..))

theorem State.dropFollowers_holds (a : Target) (s : State) (p : Port) (i : Item) :
    (s.keyStates[a].dropPorts s.following).holds p i = (s.keyStates[a].holds p i && !((s.pin p).isNone && s.keyStates[a].holds p i)) := by
  rw [KeyState.dropPorts_holds, State.has_following]
  cases s.keyStates[a].holds p i <;> cases (s.pin p).isNone <;> rfl

/-- Entries of which no source is left leave the table, the others stay in their order with key and number. -/
theorem dropSources_sublist (f : PortSet) (l : List KeyEntry) :
    ((dropSources f l).map fun e => (e.key, e.seq)).Sublist (l.map fun e => (e.key, e.seq)) := by
  have hsame : (l.map fun e => (e.key, e.seq)) = (l.map fun e => { e with sources := minus e.sources f }).map fun e => (e.key, e.seq) := by
    rw [List.map_map]
    rfl
  rw [hsame]
  exact List.filter_sublist.map _

/-! ## Step 2: what left a is suppressed or carried to b (R52) -/

section
variable {a b : Target} (trigger : ModSet) (s : State)

/-- s after steps 1 and 2, but for the T_KEYS of b. -/
def State.handedOver (a b : Target) (trigger : ModSet) (s : State) : State := (s.leave a).carriedOver s a b trigger

theorem State.handedOver_keyStates : (s.handedOver a b trigger).keyStates =
    upd (upd s.keyStates a (KeyState.dropPorts s.following)) b (KeyState.carry (s.carried a b trigger)) := by
  have hleft : (s.leave a).keyStates = (s.followersGone a).keyStates := (s.leave_delivers a).keyStates
  rw [State.handedOver, State.carriedOver, hleft]
  rfl

theorem State.handedOver_table_a (h : b ≠ a) : (s.handedOver a b trigger).keyStates[a] = s.keyStates[a].dropPorts s.following := by
  rw [State.handedOver_keyStates, upd_get_ne _ _ _ _ h.symm, upd_get]

theorem State.handedOver_table_b (h : b ≠ a) :
    (s.handedOver a b trigger).keyStates[b] = s.keyStates[b].carry (s.carried a b trigger) := by
  rw [State.handedOver_keyStates, upd_get, upd_get_ne _ _ _ _ h]

theorem State.handedOver_table_other {u : Target} (ha : u ≠ a) (hb : u ≠ b) : (s.handedOver a b trigger).keyStates[u] = s.keyStates[u] := by
  rw [State.handedOver_keyStates, upd_get_ne _ _ _ _ hb, upd_get_ne _ _ _ _ ha]

theorem State.handedOver_port (p : Port) : (s.handedOver a b trigger).ports[p] = if (s.pin p).isNone then
    s.ports[p].suppressAll (s.keyStates[a].keysOf p) (minus (s.keyStates[a].modsOf p) (s.carried a b trigger p)) (s.keyStates[a].buttonsOf p)
    else s.ports[p] := by
  have hports : (s.leave a).ports = s.ports := (s.leave_delivers a).ports
  rw [State.handedOver, State.carriedOver_port, hports]

theorem State.handedOver_samePorts : s.SamePortsButSuppressed (s.handedOver a b trigger) := fun p => by
  rw [State.handedOver_port]
  split <;> rfl

theorem State.handedOver_suppressed (p : Port) (i : Item) : (s.handedOver a b trigger).ports[p].suppressed i =
    (s.ports[p].suppressed i || ((s.pin p).isNone && s.keyStates[a].holds p i && !s.carriedItem a b trigger p i)) := by
  rw [State.handedOver_port]
  split
  · rename_i hpin
    rw [ConsolePort.suppressAll_suppressed, State.among_left, hpin, Bool.true_and]
  · rename_i hpin
    rw [Bool.not_eq_true] at hpin
    rw [hpin, Bool.false_and, Bool.false_and, Bool.or_false]

/-- The carried items: the modifiers a following port held at a, the trigger modifiers apart, where b takes them (R52). -/
theorem State.carriedItem_eq (p : Port) (i : Item) : s.carriedItem a b trigger p i = ((s.pin p).isNone && s.keyStates[a].holds p i &&
    decide (s.targets[b].power = .active ∨ s.targets[b].power = .waking) && match i with
      | .mod m => !has trigger m
      | .key _ => false
      | .button _ => false) := by
  cases i with
  | mod m =>
    have hmods : has (s.keyStates[a].modsOf p) m = s.keyStates[a].holds p (.mod m) := has_maskOf ..
    rw [State.carriedItem, State.carried, Bool.decide_or, ← hmods]
    split
    · rename_i hopen
      obtain ⟨hpin, htaking⟩ := Bool.and_eq_true_iff.1 hopen
      rw [has_minus, hpin, htaking, Bool.true_and, Bool.and_true]
    · rename_i hclosed
      have hzero : has (0 : ModSet) m = false := by simp [has]
      rw [hzero, Bool.and_right_comm _ _ (_ || _), Bool.eq_false_iff.2 hclosed, Bool.false_and, Bool.false_and]
  | key k => simp [State.carriedItem]
  | button j => simp [State.carriedItem]

/-- b's view before its T_KEYS is the one before the switch. -/
theorem State.carryOver_eq (h : b ≠ a) : (s.leave a).carryOver s a b trigger = (s.handedOver a b trigger).announceView (s.view b) b := by
  have htarget : (s.leave a).targets[b] = s.targets[b] := (s.leave_sameBut a).1 b h
  have htable : (s.leave a).keyStates[b] = s.keyStates[b] := by
    rw [(s.leave_delivers a).keyStates]
    exact upd_get_ne _ _ _ _ h
  have hview : (s.leave a).view b = s.view b := by rw [State.view, htable, htarget, State.view]
  rw [← hview]
  rfl

end

/-! ## Steps 3 to 6: b arrives (R53, R87, R120) -/

theorem TargetPort.abandonSync_eq (p : TargetPort) : p.abandonSync =
    if p.sync.phase = .pending ∨ p.sync.phase = .home ∨ p.sync.phase = .approach then { p with sync := { p.sync with phase := .cleared } }
    else p := by
  unfold TargetPort.abandonSync
  cases h : p.sync.phase <;> simp [SyncPhase.inProgress, TargetPort.clearSync]

/-- s with b in focus: the record, the accumulator, a's sync and the LEDs of the ports that follow, before the notice and the wake. -/
def State.withFocus (a b : Target) (cause : Cause) (region : Region) (s : State) : State := { s with
  focus := { s.focus with target := b, cause := cause, region := region, history := pushHistory a b s.focus.history }
  glide := { s.glide with pressure := none }
  targets := upd s.targets a fun x =>
    if x.sync.phase = .pending ∨ x.sync.phase = .home ∨ x.sync.phase = .approach then { x with sync := { x.sync with phase := .cleared } }
    else x
  sent := s.sent ++ ((List.finRange 4).filter fun q => s.ports[q].attached && s.ports[q].cls = some .keyboard &&
    (s.consoles[q].pin).isNone).map (fun q => .leds q s.targets[b].leds) }

section
variable {a b : Target} (cause : Cause) (region : Region) (s : State)

theorem State.withFocus_other {u : Target} (h : u ≠ a) : (s.withFocus a b cause region).targets[u] = s.targets[u] := upd_get_ne _ _ _ _ h

/-- Only a SUSPENDED target takes the wake request (R53, R150). -/
theorem State.arrive_eq (h : b ≠ a) : s.arrive a b cause region =
    if s.policies[b].wakePolicy = .onFocus ∧ s.targets[b].power = .suspended then
      ((s.withFocus a b cause region).raise .focusChanged (eightSubject b)).wakeRequest b
    else (s.withFocus a b cause region).raise .focusChanged (eightSubject b) := by
  have hfocus : (({ s with
      focus := { s.focus with target := b, cause := cause, region := region, history := pushHistory a b s.focus.history }
      glide := { s.glide with pressure := none } } : State).modTarget a TargetPort.abandonSync).ledsToFollowers =
        s.withFocus a b cause region := by
    rw [State.ledsToFollowers_eq, State.withFocus, State.modTarget, upd_congr (TargetPort.abandonSync_eq _), upd_get_ne _ _ _ _ h]
    rfl
  have hpower : ((s.withFocus a b cause region).raise .focusChanged (eightSubject b)).targets[b].power = s.targets[b].power :=
    congrArg TargetPort.power (s.withFocus_other (b := b) cause region h)
  unfold State.arrive
  dsimp only
  rw [hfocus]
  by_cases hp : s.targets[b].power = .suspended
  · exact if_congr (and_iff_left hp).symm rfl rfl
  · rw [State.wakeRequest_refused (by rw [hpower]; exact hp), ite_self, ite_self]

theorem State.arrive_books (h : b ≠ a) : (s.arrive a b cause region).keyStates = s.keyStates ∧ (s.arrive a b cause region).ports = s.ports := by
  rw [State.arrive_eq cause region s h]
  split
  · have hwoken := State.wakeRequest_delivers b ((s.withFocus a b cause region).raise .focusChanged (eightSubject b))
    exact ⟨hwoken.keyStates, hwoken.ports⟩
  · exact ⟨rfl, rfl⟩

theorem State.arrive_target {u : Target} (h : b ≠ a) (ha : u ≠ a) (hb : u ≠ b) : (s.arrive a b cause region).targets[u] = s.targets[u] := by
  have hraised : ((s.withFocus a b cause region).raise .focusChanged (eightSubject b)).targets[u] = s.targets[u] :=
    s.withFocus_other (b := b) cause region ha
  rw [State.arrive_eq cause region s h]
  split
  · exact ((State.wakeRequest_sameBut ..).1 u hb).trans hraised
  · exact hraised

end

end Sys2Proof.Machine
end

section
/-! PROOFS. The focus switch, whole (R38, R42, R43, R51 to R53, R87, R97, R120, R150, O18). -/

namespace Sys2Proof.Machine

section
variable {b : Target} (cause : Cause) (trigger : ModSet) (region : Region) {s : State}

/-- The four parts of a switch: steps 1 and 2, b's T_KEYS, and steps 3 to 6. -/
theorem State.switchTo_eq (h : b ≠ s.focus.target) : s.switchTo b cause trigger region =
    ((s.handedOver s.focus.target b trigger).announceView (s.view b) b).arrive s.focus.target b cause region := by
  rw [State.switchTo, if_neg h]
  rw [State.carryOver_eq trigger s h]

/-- b's arrival in the terms of the state before the switch. -/
theorem State.withFocus_eq {a : Target} {x : State} (hx : s.FocusChangeOnly x) (hpointing : x.pointing = s.pointing) (f : Focus)
    (hf : f = { s.focus with target := b, cause := cause, region := region, history := pushHistory a b s.focus.history }) :
    x.withFocus a b cause region = { x with
      focus := f
      glide := { s.glide with pressure := none }
      targets := upd x.targets a fun x =>
        if x.sync.phase = .pending ∨ x.sync.phase = .home ∨ x.sync.phase = .approach then { x with sync := { x.sync with phase := .cleared } }
        else x
      sent := x.sent ++ ((List.finRange 4).filter fun q => s.ports[q].attached && s.ports[q].cls = some .keyboard &&
        (s.consoles[q].pin).isNone).map (fun q => .leds q s.targets[b].leds) } := by
  obtain ⟨hfocus, hglide⟩ := Prod.mk.inj hpointing
  obtain ⟨hframe, hports, htargets⟩ := hx
  have hconsoles : x.consoles = s.consoles := (congrArg State.consoles hframe :)
  have hattached : ∀ q : Port, x.ports[q].attached = s.ports[q].attached := fun q => (congrArg ConsolePort.attached (hports q) :)
  have hcls : ∀ q : Port, x.ports[q].cls = s.ports[q].cls := fun q => (congrArg ConsolePort.cls (hports q) :)
  obtain ⟨-, -, -, hleds, -⟩ := htargets b
  rw [State.withFocus, hf]
  simp only [hfocus, hglide, hconsoles, hattached, hcls, hleds]

theorem State.switchTo_books (h : b ≠ s.focus.target) :
    (s.switchTo b cause trigger region).keyStates = (s.handedOver s.focus.target b trigger).keyStates ∧
      (s.switchTo b cause trigger region).ports = (s.handedOver s.focus.target b trigger).ports := by
  obtain ⟨hkeys, hports⟩ := State.arrive_books cause region ((s.handedOver s.focus.target b trigger).announceView (s.view b) b) h
  rw [State.switchTo_eq cause trigger region h, hkeys, hports, State.announceView_keyStates, State.announceView_ports]
  exact ⟨rfl, rfl⟩

/-- A third target keeps table and port. -/
theorem State.switchTo_other (h : b ≠ s.focus.target) {u : Target} (ha : u ≠ s.focus.target) (hb : u ≠ b) :
    (s.switchTo b cause trigger region).keyStates[u] = s.keyStates[u] ∧ (s.switchTo b cause trigger region).targets[u] = s.targets[u] := by
  have htold := (State.announceView_sameBut (s.view b) b (s.handedOver s.focus.target b trigger)).1 u hb
  have hleft : (s.handedOver s.focus.target b trigger).targets[u] = s.targets[u] := (s.leave_sameBut s.focus.target).1 u ha
  refine ⟨?_, ?_⟩
  · rw [(State.switchTo_books cause trigger region h).1, State.handedOver_table_other trigger s ha hb]
  · rw [State.switchTo_eq cause trigger region h, State.arrive_target cause region _ h ha hb, htold, hleft]

/-- The entry's point (R97): the detached pointer's, or the desk pointer's translated. -/
theorem State.switch_eq (h : b ≠ s.focus.target) : s.switch b cause trigger region =
    match if s.focus.detached then s.glide.detached.map fun q => (q.1 / 16, q.2 / 16)
      else (s.switchTo b cause trigger region).translate b (s.glide.px / 16) (s.glide.py / 16) with
    | some q => (s.switchTo b cause trigger region).pointerReport b q 0 false true
    | none => s.switchTo b cause trigger region := by
  obtain ⟨hfocus, hglide⟩ := Prod.mk.inj (State.switchTo_pointing cause trigger region h)
  rw [State.switch, if_neg h, State.entry, State.entryPoint, State.pointer, hfocus, hglide] <;> rfl

end

end Sys2Proof.Machine

open Sys2Proof Sys2Proof.Machine

/-- Settles O18: the switch is steps 1 and 2 (`State.handedOver`), b's T_KEYS and b's arrival (`State.arrive_eq`), of which the tables, the
suppressed sets and the ports of third targets are read off. -/
theorem focusSwitchAccountsForEveryHeldItem : Obligations.FocusSwitchAccountsForEveryHeldItem := by
  refine ⟨fun s b cause trigger region h => State.switch_eq cause trigger region h, fun s b cause trigger region h => ?_⟩
  intro a t opens taken carries keys left told released carried shown arrived raised
  obtain ⟨hkeys, hports⟩ := State.switchTo_books cause trigger region h
  obtain ⟨hfocus, hglide⟩ := Prod.mk.inj (State.switchTo_pointing cause trigger region h)
  have hcarries : ∀ p i, carries p i = s.carriedItem a b trigger p i := fun p i => (s.carriedItem_eq trigger p i).symm
  have htable_a : t.keyStates[a] = s.keyStates[a].dropPorts s.following :=
    (congrArg (·[a]) hkeys :).trans (State.handedOver_table_a trigger s h)
  have htable_b : t.keyStates[b] = s.keyStates[b].carry (s.carried a b trigger) :=
    (congrArg (·[b]) hkeys :).trans (State.handedOver_table_b trigger s h)
  have hleft : left = s.followersGone a := by
    show ({ s with keyStates := upd s.keyStates a fun _ => t.keyStates[a] } : State) = _
    rw [htable_a]
    rfl
  have hreleased : released = s.leave a := by
    rw [State.leave_eq, ← hleft]
    rfl
  have hcarried : carried = s.handedOver a b trigger := by
    show ({ released with ports := t.ports, keyStates := t.keyStates } : State) = _
    rw [hreleased, hports, hkeys]
    rfl
  have hshown : shown = (s.handedOver a b trigger).announceView (s.view b) b := by
    rw [← hcarried]
    rfl
  have hhanded : s.FocusChangeOnly ((s.handedOver a b trigger).announceView (s.view b) b) := by
    rw [← State.carryOver_eq trigger s h]
    exact (s.leave_focusOnly a).trans ((s.leave a).carryOver_focusOnly s a b trigger)
  have harrived : arrived = ((s.handedOver a b trigger).announceView (s.view b) b).withFocus a b cause region := by
    have hpointing : ((s.handedOver a b trigger).announceView (s.view b) b).pointing = s.pointing := by
      rw [← State.carryOver_eq trigger s h, State.carryOver_pointing, State.leave_pointing]
    rw [State.withFocus_eq cause region hhanded hpointing t.focus hfocus, ← hshown]
  have hpolicies : ((s.handedOver a b trigger).announceView (s.view b) b).policies = s.policies := (congrArg State.policies hhanded.1 :)
  have hpower : ((s.handedOver a b trigger).announceView (s.view b) b).targets[b].power = s.targets[b].power := by
    rw [State.announceView_power]
    exact congrArg TargetPort.power ((s.leave_sameBut a).1 b h)
  refine ⟨?_, ?_, ?_, ?_, ?_, ?_, ?_, fun p i => ?_, ?_, ?_, fun p i => ?_, ?_, fun p i => ?_, fun p => ?_, fun p hp => ?_, fun u ha hb => ?_⟩
  · show s.switchTo b cause trigger region = if _ then (arrived.raise .focusChanged (eightSubject b)).wakeRequest b
      else arrived.raise .focusChanged (eightSubject b)
    rw [State.switchTo_eq cause trigger region h, State.arrive_eq cause region _ h, hpower, hpolicies, harrived]
  · rw [hfocus]
  · rw [hfocus]
  · rw [hfocus]
  · rw [hfocus]
  · rw [hfocus]
  · rw [hfocus]
    rfl
  · rw [htable_a]
    exact s.dropFollowers_holds a p i
  · rw [htable_a]
    exact dropSources_sublist ..
  · rw [htable_a]
    rfl
  · rw [htable_b, State.carry_carriedItem, hcarries]
  · rw [htable_b]
    rfl
  · rw [hports, State.handedOver_suppressed, hcarries]
    rfl
  · rw [hports]
    exact State.handedOver_samePorts trigger s p
  · rw [hports, State.handedOver_port, if_neg (by rwa [Option.isNone_iff_eq_none])]
  · exact State.switchTo_other cause trigger region h ha hb

end

section
/-! SUPPORT. The parts of DESK_RESET, one by one (R23, R48, R49, R122, R161, R177). -/

namespace Sys2Proof.Machine

/-! ## Every table emptied into the suppressed sets (R48) -/

/-- s with the input state of every target of l cleared. -/
def State.clearInputs (l : List Target) (s : State) : State := l.foldl (fun acc t => acc.clearInput t) s

theorem State.clearInputs_frame (l : List Target) (s : State) :
    s.clearInputs l = { s with ports := (s.clearInputs l).ports, keyStates := (s.clearInputs l).keyStates } := by
  induction l generalizing s with
  | nil => rfl
  | cons t l ih =>
    have hrest := ih (s.clearInput t)
    rw [show s.clearInputs (t :: l) = (s.clearInput t).clearInputs l from rfl, hrest]
    rfl

theorem State.clearInput_table (t v : Target) (s : State) :
    (s.clearInput t).keyStates[v] = if v = t then s.keyStates[v].clear else s.keyStates[v] := upd_get_eq ..

theorem State.clearInputs_table {l : List Target} (hl : l.Nodup) (v : Target) (s : State) :
    (s.clearInputs l).keyStates[v] = if v ∈ l then s.keyStates[v].clear else s.keyStates[v] := by
  induction l generalizing s with
  | nil => rfl
  | cons t l ih =>
    obtain ⟨ht, hl⟩ := List.nodup_cons.1 hl
    rw [show s.clearInputs (t :: l) = (s.clearInput t).clearInputs l from rfl, ih hl, State.clearInput_table]
    by_cases hv : v = t
    · subst hv
      rw [if_neg ht, if_pos rfl, if_pos List.mem_cons_self]
    · rw [if_neg hv]
      exact if_congr (by simp [hv]) rfl rfl

theorem State.clearInputs_samePorts (l : List Target) (s : State) : s.SamePortsButSuppressed (s.clearInputs l) := by
  induction l generalizing s with
  | nil => exact fun _ => rfl
  | cons t l ih =>
    intro q
    rw [show s.clearInputs (t :: l) = (s.clearInput t).clearInputs l from rfl, ih (s.clearInput t) q, State.clearInput_port]
    rfl

theorem State.clearInputs_suppressed {l : List Target} (hl : l.Nodup) (q : Port) (i : Item) (s : State) :
    (s.clearInputs l).ports[q].suppressed i = (s.ports[q].suppressed i || l.any fun v => s.keyStates[v].holds q i) := by
  induction l generalizing s with
  | nil => exact (Bool.or_false _).symm
  | cons t l ih =>
    obtain ⟨ht, hl⟩ := List.nodup_cons.1 hl
    have hrest : (l.any fun v => (s.clearInput t).keyStates[v].holds q i) = l.any fun v => s.keyStates[v].holds q i := by
      rw [Bool.eq_iff_iff, List.any_eq_true, List.any_eq_true]
      refine exists_congr fun v => and_congr_right fun hv => ?_
      have hne : v ≠ t := fun e => ht (e ▸ hv)
      rw [State.clearInput_table, if_neg hne]
    rw [show s.clearInputs (t :: l) = (s.clearInput t).clearInputs l from rfl, ih hl, hrest, State.clearInput_suppressed, List.any_cons,
      Bool.or_assoc]

/-! ## Part 2: the focus unit, console ports and detector (R23, R49, R64) -/

/-- s with every table empty and everything held down suppressed, before focus and pointer are reset. -/
def State.inputReset (s : State) : State :=
  { s.clearInputs (List.finRange 8) with
    ports := updAll (s.clearInputs (List.finRange 8)).ports fun _ port => port.suppressHeld, detector := Detector.initial }

theorem State.deskResetFocus_eq (s : State) : s.deskResetFocus = s.inputReset.resetFocus.ledsToFollowers := rfl

theorem State.inputReset_frame (s : State) : s.inputReset =
    { s with ports := s.inputReset.ports, keyStates := s.inputReset.keyStates, detector := Detector.initial } := by
  rw [State.inputReset, s.clearInputs_frame]

theorem State.inputReset_table (v : Target) (s : State) :
    s.inputReset.keyStates[v] = { KeyState.initial with counter := s.keyStates[v].counter } :=
  (State.clearInputs_table (List.nodup_finRange 8) v s).trans (if_pos (List.mem_finRange v))

theorem State.inputReset_port (q : Port) (s : State) :
    s.inputReset.ports[q] = (s.clearInputs (List.finRange 8)).ports[q].suppressHeld := updAll_get ..

theorem State.inputReset_samePorts (s : State) : s.SamePortsButSuppressed s.inputReset := fun q => by
  rw [State.inputReset_port, ConsolePort.suppressHeld, s.clearInputs_samePorts _ q]
  rfl

theorem State.inputReset_suppressed (q : Port) (i : Item) (s : State) : s.inputReset.ports[q].suppressed i =
    (s.ports[q].suppressed i || s.ports[q].holding i || (List.finRange 8).any fun v => s.keyStates[v].holds q i) := by
  have hholding : (s.clearInputs (List.finRange 8)).ports[q].holding i = s.ports[q].holding i := by
    rw [s.clearInputs_samePorts _ q]
    exact congrFun (ConsolePort.holding_congr rfl) i
  rw [State.inputReset_port, ConsolePort.suppressHeld, ConsolePort.suppressAll_suppressed, ← ConsolePort.holding_eq_among, hholding,
    State.clearInputs_suppressed (List.nodup_finRange 8), Bool.or_right_comm]

/-- Empty tables and suppressed sets do not move the first screen or its region. -/
theorem State.inputReset_resetFocus {p : Place} {o : Target} {r : Region} {s : State} (hfirst : s.active.firstScreen = some p)
    (ho : s.active.displayOwner p.display = some o)
    (hregion : s.regionAt (s.active.screen p).centre.1 (s.active.screen p).centre.2 = some r) : s.inputReset.resetFocus = { s.inputReset with
      glide := Glide.at (s.active.screen p).centre.1 (s.active.screen p).centre.2, focus := ⟨o, r, .reset, false, false, []⟩ } := by
  have hactive : s.inputReset.active = s.active := (congrArg State.active s.inputReset_frame :)
  have hwindows : s.inputReset.windows = s.windows := (congrArg State.windows s.inputReset_frame :)
  have hheads : s.inputReset.heads = s.heads := (congrArg State.heads s.inputReset_frame :)
  have hplane : s.inputReset.scene.plane = s.scene.plane := by simp only [State.scene, hactive, hwindows, hheads]
  have hat : s.inputReset.regionAt (s.active.screen p).centre.1 (s.active.screen p).centre.2 = some r := by
    rw [State.regionAt_congr hplane, hregion]
  simp only [State.resetFocus, hactive, hfirst, ho, hat, Option.getD_some]

theorem State.resetFocus_frame (s : State) : s.resetFocus = { s with focus := s.resetFocus.focus, glide := s.resetFocus.glide } := by
  unfold State.resetFocus
  split <;> rfl

theorem State.deskResetFocus_frame (s : State) : s.deskResetFocus = { s with
    ports := s.inputReset.ports, keyStates := s.inputReset.keyStates, detector := Detector.initial
    focus := s.inputReset.resetFocus.focus, glide := s.inputReset.resetFocus.glide, sent := s.deskResetFocus.sent } := by
  rw [State.deskResetFocus_eq, State.ledsToFollowers_eq, State.resetFocus_frame, State.inputReset_frame]

/-- Every point of a screen has a region (R8). -/
theorem State.regionAt_isSome {x y : Nat} {p : Place} {s : State} (hl : s.active.lookup x y = some p) :
    ∃ r : Region, s.regionAt x y = some r := by
  rw [State.regionAt, hl]
  exact ⟨_, rfl⟩

/-- What part 2 makes of s: focus and pointer at the first screen's owner and centre, nothing held down but in the suppressed sets. -/
structure State.FocusReset (p : Place) (o : Target) (s t : State) : Prop where
  first      : s.active.firstScreen = some p
  owner      : s.active.displayOwner p.display = some o
  frame      : t = { s with
    ports := t.ports, detector := Detector.initial, keyStates := t.keyStates, focus := ⟨o, t.focus.region, .reset, false, false, []⟩
    glide := Glide.at (s.active.screen p).centre.1 (s.active.screen p).centre.2, sent := t.sent }
  region     : s.regionAt (s.active.screen p).centre.1 (s.active.screen p).centre.2 = some t.focus.region
  sent       : t.sent = s.sent ++ ((List.finRange 4).filter fun q => s.ports[q].attached && s.ports[q].cls = some .keyboard &&
    (s.consoles[q].pin).isNone).map (fun q => .leds q s.targets[o].leds)
  tables     : ∀ v : Target, t.keyStates[v] = { KeyState.initial with counter := s.keyStates[v].counter }
  console    : s.SamePortsButSuppressed t
  suppressed : ∀ (q : Port) (i : Item), t.ports[q].suppressed i =
    (s.ports[q].suppressed i || s.ports[q].holding i || (List.finRange 8).any fun v => s.keyStates[v].holds q i)

theorem State.deskResetFocus_reset {s : State} (hl : s.LayoutSound) : ∃ (p : Place) (o : Target), s.FocusReset p o s.deskResetFocus := by
  obtain ⟨hv, hr, -⟩ := hl
  obtain ⟨p, hmem, hfirst⟩ := Layout.firstScreen_isSome hv
  obtain ⟨o, ho⟩ := Layout.owned hv hmem
  obtain ⟨hw, hh⟩ := Layout.screen_pos hr p
  obtain ⟨r, hregion⟩ := State.regionAt_isSome (Layout.lookup_of_contains hv hmem (Rect.contains_centre hw hh))
  have hattached : ∀ q : Port, s.inputReset.ports[q].attached = s.ports[q].attached := fun q =>
    (congrArg ConsolePort.attached (s.inputReset_samePorts q) :)
  have hcls : ∀ q : Port, s.inputReset.ports[q].cls = s.ports[q].cls := fun q => (congrArg ConsolePort.cls (s.inputReset_samePorts q) :)
  have hfocus : s.deskResetFocus = { s.inputReset with
      glide := Glide.at (s.active.screen p).centre.1 (s.active.screen p).centre.2, focus := ⟨o, r, .reset, false, false, []⟩
      sent := s.sent ++ ((List.finRange 4).filter fun q => s.ports[q].attached && s.ports[q].cls = some .keyboard &&
        (s.consoles[q].pin).isNone).map (fun q => .leds q s.targets[o].leds) } := by
    rw [State.deskResetFocus_eq, State.inputReset_resetFocus hfirst ho hregion, State.ledsToFollowers_eq]
    simp only [hattached, hcls]
    rw [s.inputReset_frame]
  refine ⟨p, o, hfirst, ho, ?_, ?_, ?_, ?_, ?_, ?_⟩
  · rw [hfocus, s.inputReset_frame]
  · rw [hfocus]
    exact hregion
  · rw [hfocus]
  · rw [hfocus]
    exact fun v => s.inputReset_table v
  · rw [hfocus]
    exact s.inputReset_samePorts
  · rw [hfocus]
    exact fun q i => s.inputReset_suppressed q i

/-! ## Part 3: the target ports (R122) -/

/-- s with the event of every target port of l ended. -/
def State.portsEnd (l : List Target) (s : State) : State := l.foldl (fun acc t => acc.portEnd t) s

theorem State.portsEnd_frame (l : List Target) (s : State) : s.portsEnd l = { s with targets := (s.portsEnd l).targets } := by
  induction l generalizing s with
  | nil => rfl
  | cons t l ih =>
    have hrest := ih (s.portEnd t)
    rw [show s.portsEnd (t :: l) = (s.portEnd t).portsEnd l from rfl, hrest]
    rfl

/-- s.targets[v] with its event ended. -/
def State.ended (s : State) (v : Target) : TargetPort :=
  s.targets[v].finish (s.view v) (s.buttonSet v) (s.desktop v) s.desk.stallTime

theorem State.portEnd_target (t v : Target) (s : State) : (s.portEnd t).targets[v] = if v = t then s.ended v else s.targets[v] := by
  by_cases hv : v = t
  · subst hv
    rw [if_pos rfl]
    exact upd_get ..
  · rw [if_neg hv]
    exact upd_get_ne _ _ _ _ hv

/-- The end of a port's event asks for that port's view only. -/
theorem State.portsEnd_target {l : List Target} (hl : l.Nodup) (v : Target) (s : State) :
    (s.portsEnd l).targets[v] = if v ∈ l then s.ended v else s.targets[v] := by
  induction l generalizing s with
  | nil => rfl
  | cons t l ih =>
    obtain ⟨ht, hl⟩ := List.nodup_cons.1 hl
    rw [show s.portsEnd (t :: l) = (s.portEnd t).portsEnd l from rfl, ih hl, State.portEnd_target]
    by_cases hv : v = t
    · subst hv
      rw [if_neg ht, if_pos rfl, if_pos List.mem_cons_self]
    · have hended : (s.portEnd t).ended v = s.ended v := by
        have htarget : (s.portEnd t).targets[v] = s.targets[v] := (State.portEnd_target t v s).trans (if_neg hv)
        rw [State.ended, State.view, htarget]
        rfl
      rw [if_neg hv, hended]
      exact if_congr (by simp [hv]) rfl rfl

/-- The zero-motion report by mode (R94, R98). -/
theorem TargetPort.stillReport_zero (z : DeskSize) (b : ButtonSet) (p : TargetPort) : p.stillReport z 0 b = match p.mode with
    | .absolute => .abs (absCoord p.lx z.dw) (absCoord p.ly z.dh) 0 b
    | m => .rel 0 0 0 (buttonsIn m b) false := by
  unfold TargetPort.stillReport
  cases p.mode <;> simp only [wheelIn_zero]

/-- A port emptied by DESK_RESET, its event ended: resynced where it is ACTIVE, silent otherwise (R114, R122). -/
theorem TargetPort.deskReset_finish (v : ModSet × List Key) (b : ButtonSet) (z : DeskSize) (n : Nat) (p : TargetPort) :
    p.deskReset.finish v b z n = { p with
      hold := [], sync := { p.sync with phase := .cleared }, resync := false
      stall := if p.power = .active ∧ p.credit = 0 then some n else none
      queue := if p.power = .active then [.keys v.1 v.2, p.stillReport z 0 b] else [] } := by
  by_cases hp : p.power = .active
  · rw [TargetPort.finish_resync (p := p.deskReset) hp (decide_eq_true hp) rfl nofun nofun (Nat.le_of_ble_eq_true rfl), if_pos hp,
      if_congr (and_iff_right hp) rfl rfl]
    rfl
  · rw [TargetPort.finish_inactive (p := p.deskReset) hp nofun, TargetPort.stallStep_empty rfl, if_neg hp, if_neg fun h => hp h.1]
    show ({ p.deskReset with stall := none } : TargetPort) = _
    rw [TargetPort.deskReset, decide_eq_false hp]
    rfl

theorem State.deskResetPorts_frame (s : State) : s.deskResetPorts = { s with targets := s.deskResetPorts.targets } :=
  State.portsEnd_frame (List.finRange 8) { s with targets := updAll s.targets fun _ p => p.deskReset }

theorem State.deskResetPorts_target (v : Target) (s : State) : s.deskResetPorts.targets[v] = { s.targets[v] with
    hold := [], sync := { s.targets[v].sync with phase := .cleared }, resync := false
    stall := if s.targets[v].power = .active ∧ s.targets[v].credit = 0 then some s.desk.stallTime else none
    queue := if s.targets[v].power = .active then
      [.keys (s.view v).1 (s.view v).2, s.targets[v].stillReport s.active.desktops[v] 0 (s.buttonSet v)] else [] } := by
  have hemptied : ({ s with targets := updAll s.targets fun _ p => p.deskReset } : State).targets[v] = s.targets[v].deskReset := updAll_get ..
  have hended := (State.portsEnd_target (List.nodup_finRange 8) v { s with targets := updAll s.targets fun _ p => p.deskReset }).trans
    (if_pos (List.mem_finRange v))
  refine hended.trans ?_
  rw [State.ended, State.view, hemptied, ← TargetPort.deskReset_finish]
  rfl

end Sys2Proof.Machine
end

section
/-! PROOFS. DESK_RESET row by row, and its seven rows together (R161, R163, R177, R178, O51). -/

namespace Sys2Proof.Machine

/-! ## The rows executed -/

/-- s executing stage of a DESK_RESET. -/
def State.resetting (u : Target) (sought : Option ControlFrame) (stage : ResetStage) (s : State) : State :=
  { s with executing := some ⟨u, sought, .reset stage⟩ }

theorem State.Serves.exec_deskReset {s : State} {t : Target} {f : ControlFrame} (h : s.Serves t f .deskReset) :
    exec .deskReset s = .next (State.resetting t (some f) .focusUnit { s with ctrlLast := t }.deskResetWake) := by
  have ⟨⟨hreset, hfree, _⟩, _⟩ := h
  have hexec : exec .deskReset s = running s (State.controlPart .deskReset State.beginDeskReset) := rfl
  rw [hexec, running_eq s _ hreset, State.controlPart_free hfree, h.takeFrame]
  rfl

theorem exec_deskReset_goOn {s : State} {u : Target} {sought : Option ControlFrame} {stage : ResetStage} (hreset : s.resetAsserted = false)
    (he : s.executing = some ⟨u, sought, .reset stage⟩) : exec .deskReset s = .next (s.goOn ⟨u, sought, .reset stage⟩) := by
  have hexec : exec .deskReset s = running s (State.controlPart .deskReset State.beginDeskReset) := rfl
  rw [hexec, running_eq s _ hreset, State.controlPart, he]
  rfl

theorem exec_deskReset_part {s : State} {u : Target} {sought : Option ControlFrame} {stage n : ResetStage} (hreset : s.resetAsserted = false)
    (he : s.executing = some ⟨u, sought, .reset stage⟩) (hn : stage.next = some n) :
    exec .deskReset s = .next ((s.takePart stage).resetting u sought n) := by
  rw [exec_deskReset_goOn hreset he, State.goOn]
  dsimp only
  rw [hn]
  rfl

/-- While a DESK_RESET is executed no other row of the control engine does anything (R163). -/
theorem exec_controlRow_waitsForReset {s : State} {u : Target} {sought : Option ControlFrame} {stage : ResetStage}
    (he : s.executing = some ⟨u, sought, .reset stage⟩) :
    ∀ c ∈ [Instr.tableRead, .tableWrite, .layoutHold, .layoutRelease, .layoutAbandon, .focusSet, .wake, .windowShow, .statusRead,
      .noticeRead, .noticeClear, .noticeSubscribe, .badCommand], exec c s = .next s := by
  have hwhole : ∀ (k : Option ControlCommand) body, running s (State.control k body) = .next s :=
    fun k _ => running_of_fixed (State.takeFrame_of_busy k _ _ s he)
  have hstatus : running s (State.controlPart .statusRead State.beginStatusRead) = .next s :=
    running_of_fixed (by rw [State.controlPart, he]; exact if_neg nofun)
  simp only [List.forall_mem_cons]
  exact ⟨hwhole _ _, hwhole _ _, hwhole _ _, hwhole _ _, hwhole _ _, hwhole _ _, hwhole _ _, hwhole _ _, hstatus, hwhole _ _,
    hwhole _ _, hwhole _ _, hwhole _ _, nofun⟩

/-! ## The seven rows with nothing between -/

theorem State.takePart_resetAsserted (stage : ResetStage) (s : State) : (s.takePart stage).resetAsserted = s.resetAsserted := by
  cases stage with
  | focusUnit => exact (congrArg State.resetAsserted s.deskResetFocus_frame :)
  | targetPorts => exact (congrArg State.resetAsserted s.deskResetPorts_frame :)
  | compositor | layoutStore | noticeRecord | answer => rfl

/-- A part taken, and then n more rows. -/
theorem execTimes_deskReset_part {s : State} {u : Target} {sought : Option ControlFrame} {stage next : ResetStage} (rows : Nat)
    (hreset : s.resetAsserted = false) (hn : stage.next = some next) : execTimes .deskReset (rows + 1) (s.resetting u sought stage) =
      execTimes .deskReset rows (((s.resetting u sought stage).takePart stage).resetting u sought next) :=
  execTimes_next (exec_deskReset_part (s := s.resetting u sought stage) hreset rfl hn) rows

/-- s with a DESK_RESET of t begun (part 1). -/
def State.resetBegun (t : Target) (f : ControlFrame) (s : State) : State :=
  State.resetting t (some f) .focusUnit { s with ctrlLast := t }.deskResetWake

/-- s with parts 3 to 6 taken, before the reply to t. -/
def State.lastParts (t : Target) (f : ControlFrame) (s : State) : State :=
  ((s.resetting t (some f) .targetPorts).deskResetPorts.resetting t (some f) .compositor).deskResetWindows.abandonHold.deskResetNotices.resetting
    t (some f) .answer

/-- s with all six parts of a DESK_RESET of t taken, before the reply. -/
def State.partsTaken (t : Target) (f : ControlFrame) (s : State) : State := (s.resetBegun t f).deskResetFocus.lastParts t f

theorem State.lastParts_frame (t : Target) (f : ControlFrame) (s : State) : s.lastParts t f = { s with
    targets := s.deskResetPorts.targets, windows := updAll s.windows fun _ r => { r with age := 0, stale := false }
    edit := s.active, holdOwner := none, notices := Vector.ofFn fun _ => 0, executing := some ⟨t, some f, .reset .answer⟩ } := by
  have htargets : (s.resetting t (some f) .targetPorts).deskResetPorts.targets = s.deskResetPorts.targets := by
    refine vector_ext fun v => ?_
    exact (State.deskResetPorts_target v (s.resetting t (some f) .targetPorts)).trans (State.deskResetPorts_target v s).symm
  have hframe := (s.resetting t (some f) .targetPorts).deskResetPorts_frame
  rw [htargets] at hframe
  rw [State.lastParts, hframe]
  simp only [State.resetting, State.deskResetWindows, State.abandonHold, State.deskResetNotices]

theorem State.Serves.execTimes_deskReset {s : State} {t : Target} {f : ControlFrame} (h : s.Serves t f .deskReset) :
    execTimes .deskReset 7 s = execTimes .deskReset 1 (s.partsTaken t f) := by
  have hreset : s.resetAsserted = false := h.1.1
  let x1 := s.resetBegun t f
  have hfocus : x1.deskResetFocus.resetAsserted = false := (x1.takePart_resetAsserted .focusUnit).trans hreset
  let x2 := x1.deskResetFocus.resetting t (some f) .targetPorts
  have hports : x2.deskResetPorts.resetAsserted = false := (x2.takePart_resetAsserted .targetPorts).trans hfocus
  rw [execTimes_next h.exec_deskReset]
  refine (execTimes_deskReset_part (s := { s with ctrlLast := t }.deskResetWake) (stage := .focusUnit) (next := .targetPorts) 5 hreset rfl).trans ?_
  refine (execTimes_deskReset_part (s := x1.deskResetFocus) (next := .compositor) 4 hfocus rfl).trans ?_
  refine (execTimes_deskReset_part (s := x2.deskResetPorts) (next := .layoutStore) 3 hports rfl).trans ?_
  refine (execTimes_deskReset_part (s := (x2.deskResetPorts.resetting t (some f) .compositor).deskResetWindows)
    (next := .noticeRecord) 2 hports rfl).trans ?_
  exact execTimes_deskReset_part (s := (x2.deskResetPorts.resetting t (some f) .compositor).deskResetWindows.abandonHold)
    (next := .answer) 1 hports rfl

/-- An emptied table has no view and no button (R40, R42). -/
theorem KeyState.emptied_view (counter : BitVec 16) (m : Mode) : ({ KeyState.initial with counter := counter } : KeyState).view m = (0, []) := by
  have hmods : KeyState.initial.modSet = 0 := by decide
  refine Prod.ext hmods ?_
  cases m <;> rfl

theorem KeyState.emptied_buttonSet (counter : BitVec 16) : ({ KeyState.initial with counter := counter } : KeyState).buttonSet = 0 := by
  have hbuttons : KeyState.initial.buttonSet = 0 := by decide
  exact hbuttons

theorem TargetPort.cancelWake_power (p : TargetPort) :
    (p.power = .waking → p.cancelWake.power = .suspended ∧ p.cancelWake.wakeTimer = none ∧ p.cancelWake.retry = 0) ∧
      (p.power ≠ .waking → p.cancelWake = p) := by
  unfold TargetPort.cancelWake
  exact ⟨fun h => by rw [if_pos h]; exact ⟨rfl, rfl, rfl⟩, fun h => if_neg h⟩

/-- What else part 1 leaves of a port. -/
theorem TargetPort.cancelWake_rest (p : TargetPort) : p.cancelWake = { p with
    power := p.cancelWake.power, wakeTimer := p.cancelWake.wakeTimer, retry := p.cancelWake.retry, hold := p.cancelWake.hold } := by
  unfold TargetPort.cancelWake
  split <;> rfl

/-- The zero-motion report with no button, by mode. -/
theorem TargetPort.stillReport_released (z : DeskSize) (p : TargetPort) : p.stillReport z 0 0 = match p.mode with
    | .absolute => .abs (absCoord p.lx z.dw) (absCoord p.ly z.dh) 0 0
    | _ => .rel 0 0 0 0 false := by
  unfold TargetPort.stillReport
  cases p.mode <;> rfl

/-- A port of t after parts 1 to 3 with no key and no button left: its cancelled wake, emptied, and resynced where it is ACTIVE. -/
theorem State.FocusReset.resetPort {s : State} {t : Target} {f : ControlFrame} {p : Place} {o : Target}
    (h : (s.resetBegun t f).FocusReset p o (s.resetBegun t f).deskResetFocus) (u : Target) :
    (s.resetBegun t f).deskResetFocus.deskResetPorts.targets[u] = { s.targets[u].cancelWake with
      hold := [], sync := { s.targets[u].sync with phase := .cleared }, resync := false
      stall := if s.targets[u].cancelWake.power = .active ∧ s.targets[u].credit = 0 then some s.desk.stallTime else none
      queue := if s.targets[u].cancelWake.power = .active then
        [.keys 0 [], s.targets[u].stillReport s.active.desktops[u] 0 0] else [] } := by
  have htargets : (s.resetBegun t f).deskResetFocus.targets[u] = s.targets[u].cancelWake :=
    (congrArg (fun x : State => x.targets[u]) h.frame :).trans (updAll_get ..)
  have hactive : (s.resetBegun t f).deskResetFocus.active = s.active := (congrArg State.active h.frame :)
  have hdesk : (s.resetBegun t f).deskResetFocus.desk = s.desk := (congrArg State.desk h.frame :)
  have hview : (s.resetBegun t f).deskResetFocus.view u = (0, []) := by
    rw [State.view, h.tables, KeyState.emptied_view]
  have hbuttons : (s.resetBegun t f).deskResetFocus.buttonSet u = 0 := by
    rw [State.buttonSet, h.tables, KeyState.emptied_buttonSet]
  rw [State.deskResetPorts_target, htargets, hactive, hdesk, hview, hbuttons]
  rw [s.targets[u].cancelWake_rest]
  rfl

/-- The seventh row answers the sender, whose lane is up. -/
theorem State.Serves.execTimes_replies {s : State} {t : Target} {f : ControlFrame} {p : Place} {o : Target} (h : s.Serves t f .deskReset)
    (hr : (s.resetBegun t f).FocusReset p o (s.resetBegun t f).deskResetFocus) :
    execTimes .deskReset 7 s = .next ({ s.partsTaken t f with executing := none }.answered t f .ok []) := by
  have ⟨⟨hreset, _, hattached, _⟩, _⟩ := h
  have hframe : s.partsTaken t f = _ := (s.resetBegun t f).deskResetFocus.lastParts_frame t f
  have hasserted : (s.partsTaken t f).resetAsserted = false := by
    rw [hframe, hr.frame]
    exact hreset
  have hlast : (s.partsTaken t f).ctrlLast = t := by
    rw [hframe, hr.frame]
    rfl
  have hbusy : (s.partsTaken t f).executing = some ⟨t, some f, .reset .answer⟩ := by rw [hframe]
  have hup : (s.partsTaken t f).targets[t].attached = true := by
    rw [hframe]
    dsimp only
    rw [hr.resetPort, s.targets[t].cancelWake_rest]
    exact hattached
  rw [h.execTimes_deskReset, execTimes_next (exec_deskReset_goOn hasserted hbusy)]
  exact congrArg _ (State.reply_eq_answered (x := { s.partsTaken t f with executing := none }) (a := okWith []) hup hlast)

end Sys2Proof.Machine

open Sys2Proof Sys2Proof.Machine

/-- Settles O51: each part by its own lemma, and the seven rows as part 1, part 2 (`State.FocusReset`) and the rest (`State.lastParts_frame`). -/
theorem deskResetReturnsToAKnownState : Obligations.DeskResetReturnsToAKnownState := by
  refine ⟨fun t f s h => h.exec_deskReset, fun u sought stage s hreset he => ?_,
    fun c u sought stage s he hc => exec_controlRow_waitsForReset he c hc, fun t f s h hl => ?_⟩
  · refine ⟨s.goOn ⟨u, sought, .reset stage⟩, exec_deskReset_goOn hreset he, ?_, ?_, ?_, ?_, ?_, ?_⟩
    · rintro rfl hl
      obtain ⟨p, o, hr⟩ := State.deskResetFocus_reset hl
      exact ⟨p, o, hr.first, hr.owner, (congrArg (State.resetting u sought .targetPorts) hr.frame :), hr.region, hr.sent, hr.tables, hr.console,
        hr.suppressed⟩
    · rintro rfl
      refine ⟨(congrArg (State.resetting u sought .compositor) s.deskResetPorts_frame :), fun v => ?_⟩
      refine (s.deskResetPorts_target v).trans ?_
      rw [TargetPort.stillReport_zero] <;> rfl
    · rintro rfl
      rfl
    · rintro rfl
      rfl
    · rintro rfl
      rfl
    · rintro rfl
      refine ⟨?_, ?_⟩
      · rintro rfl
        rfl
      · rintro f rfl hattached
        exact State.reply_attached (s := { s with executing := none }) hattached f (okWith [])
  · obtain ⟨p, o, hr⟩ := State.deskResetFocus_reset (s := s.resetBegun t f) hl
    have hframe : s.partsTaken t f = _ := (s.resetBegun t f).deskResetFocus.lastParts_frame t f
    have hports : ∀ u : Target, (s.partsTaken t f).targets[u] = (s.resetBegun t f).deskResetFocus.deskResetPorts.targets[u] := fun u => by
      rw [hframe]
    have hwindows : (s.resetBegun t f).deskResetFocus.windows = s.windows := (congrArg State.windows hr.frame :)
    have hfree : s.executing = none := h.1.2.1
    have hleds : (s.resetBegun t f).targets[o].leds = s.targets[o].leds := by
      rw [show (s.resetBegun t f).targets[o] = s.targets[o].cancelWake from updAll_get .., s.targets[o].cancelWake_rest]
    refine ⟨{ s.partsTaken t f with executing := none }, p, o, h.execTimes_replies hr, hr.first, hr.owner, ?_, ?_,
      fun w => ?_, ?_, fun u => ?_, ?_, fun u => ?_⟩
    · rw [hframe]
      have hfocus := hr.frame
      generalize (s.resetBegun t f).deskResetFocus.deskResetPorts.targets = targets
      generalize (s.resetBegun t f).deskResetFocus = x at hfocus ⊢
      rw [hfocus, ← hfree]
      rfl
    · rw [hframe]
      exact hr.region
    · rw [hframe]
      exact (updAll_get ..).trans (by rw [hwindows])
    · rw [hframe]
      exact hr.sent.trans (by rw [hleds]; rfl)
    · rw [hframe]
      exact hr.tables u
    · rw [hframe]
      exact hr.console
    · dsimp only
      rw [hports u, hr.resetPort u]
      have hrest := s.targets[u].cancelWake_rest
      obtain ⟨hwaking, hother⟩ := s.targets[u].cancelWake_power
      refine ⟨(congrArg TargetPort.attached hrest :), (congrArg TargetPort.mode hrest :), (congrArg TargetPort.credit hrest :),
        (congrArg TargetPort.lx hrest :), (congrArg TargetPort.ly hrest :), (congrArg TargetPort.leds hrest :),
        (congrArg TargetPort.inbox hrest :), rfl, rfl, rfl, hwaking, fun hp => ?_, fun hp => if_neg hp, fun hp => ?_⟩
      · rw [hother hp]
        exact ⟨rfl, rfl, rfl⟩
      · exact (if_pos hp).trans (by rw [TargetPort.stillReport_released] <;> rfl)

end
